-- ==== Sys2Proof/Word.lean ====
section
/-! DEFINITION. The values the dispatcher handles (R7): bytes, levels and pin references. -/

namespace Sys2Proof

/-- A byte: an unsigned 8-bit value (R7). -/
abbrev Byte := BitVec 8

/-- A pin level, one bit on the port `pin_level` (R7, D5): `high` is 1, `low` is 0. -/
inductive Level where
  | low
  | high
  deriving DecidableEq, Repr

/-- A physical pin, "(port: enumerated value, bitIndex: 0–7)" (R6, R7). The bit is three bits wide by its type; that the
port is below `N_PORT` is a fact about a configuration (R6 (c), R13 (a)). -/
structure PinRef where
  port : Nat
  bit : Fin 8
  deriving DecidableEq, Repr

/-- The address of a pin in pin space (R21): eight bits to a port. -/
def PinRef.key (p : PinRef) : Nat := 8 * p.port + p.bit.val

end Sys2Proof
end

