-- ==== Sys2Proof/Config.lean ====
section
/-! DEFINITION. The parameters fixed at build time (R5), the constants with a normative value, the fixtures of
95_test_vectors.md and the free values of the environment. -/

namespace Sys2Proof

/-- The open parameters of R5. `pinTable` is `PIN_TABLE` written as its entries; it is read through `Config.lookup`. -/
structure Config where
  /-- `N_LETTER`: how many letter selectors there are. -/
  nLetter : Nat
  /-- `N_PORT`: how many ports there are. -/
  nPort : Nat
  /-- `PIN_TABLE`: the entries, each a selector byte and the pin it names. -/
  pinTable : List (Byte × PinRef)
  /-- `HELP_TEXT`: the bytes of the help text, first byte first (R25). -/
  helpText : List Byte
  deriving DecidableEq, Repr

/-- `T_SHORT_MS` (R5), the document's value. -/
def Config.tShortMs : Nat := 100

/-- `T_LONG_MS` (R5), the document's value. -/
def Config.tLongMs : Nat := 1000

/-- `SEL_RESET` (R5): port 0, bit 0. -/
def Config.selReset : PinRef := { port := 0, bit := 0 }

/-- The ten digit selectors `'0'` to `'9'` (R6 (b)). -/
def Config.digitBytes : List Byte := [0x30, 0x31, 0x32, 0x33, 0x34, 0x35, 0x36, 0x37, 0x38, 0x39]

/-- The first `n` letter selectors, `'a'` onwards (R5, R6 (b)). -/
def Config.letterBytes (n : Nat) : List Byte := (List.range n).map fun k => BitVec.ofNat 8 (0x61 + k)

/-- `ALPHABET` of R6 (b) for `n` letters, in rising order. -/
def Config.alphabet (n : Nat) : List Byte := Config.digitBytes ++ Config.letterBytes n

/-- The help text both fixtures use (95_test_vectors.md section 0). -/
def Config.fixtureHelp : List Byte :=
  [0x30, 0x2D, 0x39, 0x61, 0x2D, 0x66, 0x20, 0x73, 0x65, 0x6C, 0x0D, 0x0A,
   0x48, 0x4C, 0x74, 0x54, 0x75, 0x55, 0x3F, 0x20, 0x6F, 0x70, 0x0D, 0x0A]

/-- The pin number `k` counted eight to a port from port `first`. -/
def Config.nthPin (first k : Nat) : PinRef :=
  { port := first + k / 8, bit := ⟨k % 8, Nat.mod_lt _ (by decide)⟩ }

/-- Entries that give the selectors of an alphabet consecutive pins from port `first`. -/
def Config.consecutive (first : Nat) (bytes : List Byte) : List (Byte × PinRef) :=
  bytes.zipIdx.map fun e => (e.1, Config.nthPin first e.2)

/-- Fixture TC1 of 95_test_vectors.md: six letters, three ports, `'0'` names (1, 0). -/
def Config.fixtureTC1 : Config :=
  { nLetter := 6, nPort := 3
    pinTable := Config.consecutive 1 (Config.alphabet 6), helpText := Config.fixtureHelp }

/-- Fixture TC2 of 95_test_vectors.md: all 26 letters, five ports, `'0'` names (0, 0). -/
def Config.fixtureTC2 : Config :=
  { nLetter := 26, nPort := 5
    pinTable := Config.consecutive 0 (Config.alphabet 26), helpText := Config.fixtureHelp }

/-- DESIGN CHOICE (log 2): the configuration `State.reset` and `decodeTableWord` use. The spec leaves the configuration
open (U5); TC2 is the fixture in which every selector of the opcode table exists. No claim about commands rests on it. -/
def Config.atReset : Config := Config.fixtureTC2

/-- Free value (log 7): the level of `rst` at the clock edge after the `n`-th move of the environment. -/
opaque Config.freeRst : Nat → Bool

/-- Free value (log 7): the bytes that become pending during the `n`-th move (U4). -/
opaque Config.freeArrive : Nat → List (BitVec 8)

/-- Free value (log 7): the transmit readiness after the `n`-th move (U3). -/
opaque Config.freeTxReady : Nat → Bool

/-- Free value (log 7, log 23): which of the bytes already pending the Transport Adapter loses during the `n`-th move (U4, N11). -/
opaque Config.freeLose : Nat → List Bool

/-- Free value (log 7, log 17): how many moves pass before the timer's next fire step, counted from the `n`-th move, the one
after a fire step (U2, D23). -/
opaque Config.freeGap : Nat → Nat

end Sys2Proof
end

