-- ==== Sys2Proof/Syntax.lean ====
section
/-! DEFINITION. The commands: one constructor per row of spec/opcode_table.json (R34, R38). -/

namespace Sys2Proof

/-- The command alphabet. A command is one byte and carries no operand field (R34, R35); only `UNK` stands for many bytes,
and names the one it came from. -/
inductive Instr where
  /-- `SEL_0`, byte 0x30 (R53). -/
  | sel_0
  /-- `SEL_1`, byte 0x31 (R53). -/
  | sel_1
  /-- `SEL_2`, byte 0x32 (R53). -/
  | sel_2
  /-- `SEL_3`, byte 0x33 (R53). -/
  | sel_3
  /-- `SEL_4`, byte 0x34 (R53). -/
  | sel_4
  /-- `SEL_5`, byte 0x35 (R53). -/
  | sel_5
  /-- `SEL_6`, byte 0x36 (R53). -/
  | sel_6
  /-- `SEL_7`, byte 0x37 (R53). -/
  | sel_7
  /-- `SEL_8`, byte 0x38 (R53). -/
  | sel_8
  /-- `SEL_9`, byte 0x39 (R53). -/
  | sel_9
  /-- `SEL_a`, byte 0x61 (R54); there is such a command only when `N_LETTER >= 1`. -/
  | sel_a
  /-- `SEL_b`, byte 0x62 (R54); there is such a command only when `N_LETTER >= 2`. -/
  | sel_b
  /-- `SEL_c`, byte 0x63 (R54); there is such a command only when `N_LETTER >= 3`. -/
  | sel_c
  /-- `SEL_d`, byte 0x64 (R54); there is such a command only when `N_LETTER >= 4`. -/
  | sel_d
  /-- `SEL_e`, byte 0x65 (R54); there is such a command only when `N_LETTER >= 5`. -/
  | sel_e
  /-- `SEL_f`, byte 0x66 (R54); there is such a command only when `N_LETTER >= 6`. -/
  | sel_f
  /-- `SEL_g`, byte 0x67 (R54); there is such a command only when `N_LETTER >= 7`. -/
  | sel_g
  /-- `SEL_h`, byte 0x68 (R54); there is such a command only when `N_LETTER >= 8`. -/
  | sel_h
  /-- `SEL_i`, byte 0x69 (R54); there is such a command only when `N_LETTER >= 9`. -/
  | sel_i
  /-- `SEL_j`, byte 0x6A (R54); there is such a command only when `N_LETTER >= 10`. -/
  | sel_j
  /-- `SEL_k`, byte 0x6B (R54); there is such a command only when `N_LETTER >= 11`. -/
  | sel_k
  /-- `SEL_l`, byte 0x6C (R54); there is such a command only when `N_LETTER >= 12`. -/
  | sel_l
  /-- `SEL_m`, byte 0x6D (R54); there is such a command only when `N_LETTER >= 13`. -/
  | sel_m
  /-- `SEL_n`, byte 0x6E (R54); there is such a command only when `N_LETTER >= 14`. -/
  | sel_n
  /-- `SEL_o`, byte 0x6F (R54); there is such a command only when `N_LETTER >= 15`. -/
  | sel_o
  /-- `SEL_p`, byte 0x70 (R54); there is such a command only when `N_LETTER >= 16`. -/
  | sel_p
  /-- `SEL_q`, byte 0x71 (R54); there is such a command only when `N_LETTER >= 17`. -/
  | sel_q
  /-- `SEL_r`, byte 0x72 (R54); there is such a command only when `N_LETTER >= 18`. -/
  | sel_r
  /-- `SEL_s`, byte 0x73 (R54); there is such a command only when `N_LETTER >= 19`. -/
  | sel_s
  /-- `SEL_t`, byte 0x74 (R54); there is such a command only when `N_LETTER >= 20`. -/
  | sel_t
  /-- `SEL_u`, byte 0x75 (R54); there is such a command only when `N_LETTER >= 21`. -/
  | sel_u
  /-- `SEL_v`, byte 0x76 (R54); there is such a command only when `N_LETTER >= 22`. -/
  | sel_v
  /-- `SEL_w`, byte 0x77 (R54); there is such a command only when `N_LETTER >= 23`. -/
  | sel_w
  /-- `SEL_x`, byte 0x78 (R54); there is such a command only when `N_LETTER >= 24`. -/
  | sel_x
  /-- `SEL_y`, byte 0x79 (R54); there is such a command only when `N_LETTER >= 25`. -/
  | sel_y
  /-- `SEL_z`, byte 0x7A (R54); there is such a command only when `N_LETTER >= 26`. -/
  | sel_z
  /-- `H`, byte 0x48: drive the selected pin high (R55). -/
  | high
  /-- `L`, byte 0x4C: drive the selected pin low (R56). -/
  | low
  /-- `t`, byte 0x74: short low pulse (R58); there is such a command only when `N_LETTER <= 19`. -/
  | shortLow
  /-- `T`, byte 0x54: short high pulse (R59). -/
  | shortHigh
  /-- `u`, byte 0x75: long low pulse (R60); there is such a command only when `N_LETTER <= 20`. -/
  | longLow
  /-- `U`, byte 0x55: long high pulse (R61). -/
  | longHigh
  /-- `?`, byte 0x3F: send the help text (R63). -/
  | help
  /-- `UNK`: the byte `op` matches no other class (R64). -/
  | unk (op : Byte)
  deriving DecidableEq, Repr

end Sys2Proof
end

