-- ==== Sys2Proof/WellFormed.lean ====
section
/-! DEFINITION. Well-formed configurations (R6) and the commands a configuration has (R37, R38, R54, R58, R60, R64). -/

namespace Sys2Proof

/-- What can be wrong with a configuration, one name per clause of R6 (U6). -/
inductive ConfigDefect where
  /-- R6 (a): `N_LETTER` is above 26. -/
  | tooManyLetters
  /-- R6 (a): there is no port. -/
  | noPort
  /-- R6 (b): the table's entries are not exactly those of the selector alphabet. -/
  | tableNotAlphabet
  /-- R6 (c): an entry names a port that does not exist. -/
  | portOutOfRange
  /-- R6 (d): the help text holds a byte that is not ASCII. -/
  | helpNotAscii
  deriving DecidableEq, Repr

/-- The first clause of R6 the configuration breaks, if it breaks one. R6 (c)'s bound on the bit index holds by the type of
`PinRef.bit`. -/
def Config.defect? (c : Config) : Option ConfigDefect :=
  if 26 < c.nLetter then some .tooManyLetters
  else if c.nPort = 0 then some .noPort
  else if c.pinTable.map Prod.fst ≠ Config.alphabet c.nLetter then some .tableNotAlphabet
  else if c.pinTable.any (fun e => decide (c.nPort ≤ e.2.port)) then some .portOutOfRange
  else if c.helpText.any (fun b => decide (0x80 ≤ b.toNat)) then some .helpNotAscii
  else none

/-- R6: the configuration is well formed. -/
abbrev Config.wf (c : Config) : Prop := c.defect? = none

/-- R64: with `n` letters, `op` is neither a selector nor one of the seven operation and help bytes. -/
abbrev isUnknownByte (n : Nat) (op : Byte) : Prop :=
  ¬ (0x30 ≤ op.toNat ∧ op.toNat ≤ 0x39) ∧ ¬ (0x61 ≤ op.toNat ∧ op.toNat ≤ 0x60 + n) ∧
    op ∉ ([0x48, 0x4C, 0x74, 0x54, 0x75, 0x55, 0x3F] : List Byte)

/-- The command exists in the configuration (the column "condition" of R38, the rows' `cond` in opcode_table.json). -/
abbrev Instr.wf (c : Config) : Instr → Prop
  | .sel_0 => True
  | .sel_1 => True
  | .sel_2 => True
  | .sel_3 => True
  | .sel_4 => True
  | .sel_5 => True
  | .sel_6 => True
  | .sel_7 => True
  | .sel_8 => True
  | .sel_9 => True
  | .sel_a => 1 ≤ c.nLetter
  | .sel_b => 2 ≤ c.nLetter
  | .sel_c => 3 ≤ c.nLetter
  | .sel_d => 4 ≤ c.nLetter
  | .sel_e => 5 ≤ c.nLetter
  | .sel_f => 6 ≤ c.nLetter
  | .sel_g => 7 ≤ c.nLetter
  | .sel_h => 8 ≤ c.nLetter
  | .sel_i => 9 ≤ c.nLetter
  | .sel_j => 10 ≤ c.nLetter
  | .sel_k => 11 ≤ c.nLetter
  | .sel_l => 12 ≤ c.nLetter
  | .sel_m => 13 ≤ c.nLetter
  | .sel_n => 14 ≤ c.nLetter
  | .sel_o => 15 ≤ c.nLetter
  | .sel_p => 16 ≤ c.nLetter
  | .sel_q => 17 ≤ c.nLetter
  | .sel_r => 18 ≤ c.nLetter
  | .sel_s => 19 ≤ c.nLetter
  | .sel_t => 20 ≤ c.nLetter
  | .sel_u => 21 ≤ c.nLetter
  | .sel_v => 22 ≤ c.nLetter
  | .sel_w => 23 ≤ c.nLetter
  | .sel_x => 24 ≤ c.nLetter
  | .sel_y => 25 ≤ c.nLetter
  | .sel_z => 26 ≤ c.nLetter
  | .high => True
  | .low => True
  | .shortLow => c.nLetter ≤ 19
  | .shortHigh => True
  | .longLow => c.nLetter ≤ 20
  | .longHigh => True
  | .help => True
  | .unk op => isUnknownByte c.nLetter op

end Sys2Proof
end

