-- ==== Sys2Proof/Machine/State.lean ====
section
/-! DEFINITION. The machine's state: the dispatcher's three cells (R9), the environment the spec names (R17), the reset input
(R80), the event trace (R51) and the configuration (R5); the reasons to stop; the state after reset (R18). -/

namespace Sys2Proof.Machine

/-- `PHASE` (R12): between commands, or inside a pulse's delay. -/
inductive Phase where
  | idle
  | wait
  deriving DecidableEq, Repr

/-- `TMR`, the timer's state (R73). -/
inductive Timer where
  | idle
  | running (ms : Nat)
  | expired
  deriving DecidableEq, Repr

/-- The events a transition emits (R8). -/
inductive Event where
  | rxTake (b : Byte)
  | pinSet (p : PinRef) (l : Level)
  | tmrStart (ms : Nat)
  | tmrDone
  | txByte (b : Byte)
  | txString (text : List Byte)
  | poll
  deriving DecidableEq, Repr

/-- One clock cycle of the trace: a transition with its events in order (R8, R28), or a cycle with `rst` = 1, which emits
none (R80). -/
inductive Cycle where
  | ran (events : List Event)
  | reset
  deriving DecidableEq, Repr

/-- `PINLVL` (R17 (a)): the pins that have been driven, each with its level, keyed by `PinRef.key`. An unlisted pin has no
level. -/
abbrev Memory := List (Nat × Level)

/-- One move of the environment between two clock edges (log 6). -/
structure EnvMove where
  /-- The level of `rst` at the next edge (R80). -/
  rst : Bool
  /-- Which of the bytes already pending the Transport Adapter loses, oldest first, `true` for a lost one; the bytes past its end
  are held (R17 (c), R75, R85; log 23). -/
  lose : List Bool
  /-- The bytes the Transport Adapter makes pending, oldest first (R24, R75). -/
  arrive : List Byte
  /-- The level of `tx_ready` at the next edge (R75). -/
  txReady : Bool
  /-- Whether the timer takes its fire step, if that is enabled (R73). -/
  fire : Bool
  deriving DecidableEq, Repr

/-- The whole machine. -/
structure State where
  /-- The configuration (R5). No step writes it (log 1). -/
  cfg : Config
  /-- `SEL`, the Selection Register (R10). -/
  sel : PinRef
  /-- `CUR`, the command byte of the pulse in progress (R11). -/
  cur : Byte
  /-- `PHASE` (R12). -/
  phase : Phase
  /-- `PINLVL` (R17 (a)). -/
  pinlvl : Memory
  /-- `TMR` (R17 (b), R73). -/
  tmr : Timer
  /-- The Transport Adapter's pending input, oldest first (R17 (c), R24). -/
  pending : List Byte
  /-- The level of `tx_ready` at the coming edge, the sample `txr` (R8, R16). -/
  txReady : Bool
  /-- The level of `rst` at the coming edge (R80). -/
  rst : Bool
  /-- The event trace, newest cycle first (R8, R51). -/
  trace : List Cycle
  /-- The model's own field: the environment's coming moves, the next one first (log 6). -/
  env : List EnvMove
  /-- The model's own field: how many moves the environment has made, the argument of the free values (log 7). -/
  draws : Nat
  deriving DecidableEq, Repr

/-- The reasons a step can stop with a fault. The spec has none (R66): each is safe, and no state that meets
`State.Inv` reaches one. -/
inductive Fault where
  /-- Raised by a `PinSet` whose port is not below `N_PORT`, an address that does not exist (R21, R76). Safe. -/
  | noSuchPin
  /-- Raised by a `TmrStart` while the timer is not `Idle` (R73, U15). Safe. -/
  | timerBusy
  /-- Raised by a completing transition whose `CUR` is no pulse command, which R62 says cannot occur. Safe. -/
  | notAPulse
  deriving DecidableEq, Repr

/-- The reasons a step can be refused. -/
inductive Refusal where
  /-- Raised by an arm of `exec` that has no meaning yet. Safe. -/
  | notModelled (mnemonic : String)
  /-- Raised by `step` when the configuration is not well formed (R6, R66, U6). Safe. -/
  | illFormedConfig (d : ConfigDefect)
  /-- Raised by the meaning of a command that the configuration does not have (R54, R58, R60, R64; log 11): a
  selector without a table entry, a pulse whose byte is a selector, an `UNK` whose byte is another command. Safe; `step` never answers it. -/
  | absentCommand
  deriving DecidableEq, Repr

/-- The state right after power-up and reset, in a configuration (R18, R80; log 8 for the environment's fields). -/
def State.resetOf (c : Config) : State :=
  { cfg := c, sel := Config.selReset, cur := 0x00, phase := .idle, pinlvl := [], tmr := .idle
    pending := [], txReady := false, rst := false, trace := [], env := [], draws := 0 }

/-- The state right after reset (R18), in the configuration of log 2. -/
def State.reset : State := State.resetOf Config.atReset

end Sys2Proof.Machine
end

