-- ==== Sys2Proof/Machine/Flags.lean ====
section
/-! DEFINITION. The dispatcher has no flags, condition codes or predicates (R14). What a transition tests instead are the three
samples of R8, read here off the environment's state. -/

namespace Sys2Proof.Machine

/-- `sample rx` (R8, R24): the byte the Transport Adapter offers, if one is pending. -/
def State.rx (s : State) : Option Byte := s.pending.head?

/-- `sample txr` (R8, R75): whether the transmit path is ready. -/
def State.txr (s : State) : Bool := s.txReady

/-- `sample done` (R8, R73): true exactly when the timer is `Expired`. -/
def State.done (s : State) : Bool := decide (s.tmr = .expired)

end Sys2Proof.Machine
end

