-- ==== Sys2Proof/Decode.lean ====
section
/-! DEFINITION. Decoding and encoding: the table lookup (R22), the classification function (R36), the command a byte is (R38),
and the byte a command is (R34, R53 to R64). -/

namespace Sys2Proof

/-- `PIN_TABLE(b)` (R22): the entry for the byte, if there is one. -/
def Config.lookup (c : Config) (b : Byte) : Option PinRef := c.pinTable.lookup b

/-- `PORT_W` (R5): the least `w` of at least 1, at most `fuel` more, with `2 ^ w` at least `n`. -/
def leastWidth (n : Nat) : Nat → Nat → Nat
  | 0, w => w
  | fuel + 1, w => if n ≤ 2 ^ w then w else leastWidth n fuel (w + 1)

/-- `PORT_W` (R5): the width of a port number. -/
def Config.portW (c : Config) : Nat := leastWidth c.nPort c.nPort 1

/-- The classes of R36, with what each carries. -/
inductive Command where
  | selectPin (p : PinRef)
  | setHigh
  | setLow
  | pulseLowThenHigh (ms : Nat)
  | pulseHighThenLow (ms : Nat)
  | help
  | unknown
  deriving DecidableEq, Repr

/-- The classification function of R36: the table first (R37), then the seven fixed bytes, then UNKNOWN. -/
def classify (c : Config) (b : Byte) : Command :=
  match c.lookup b with
  | some p => .selectPin p
  | none =>
    if b = 0x48 then .setHigh
    else if b = 0x4C then .setLow
    else if b = 0x74 then .pulseLowThenHigh Config.tShortMs
    else if b = 0x54 then .pulseHighThenLow Config.tShortMs
    else if b = 0x75 then .pulseLowThenHigh Config.tLongMs
    else if b = 0x55 then .pulseHighThenLow Config.tLongMs
    else if b = 0x3F then .help
    else .unknown

/-- The selector command whose byte is `b`, the mnemonic tables of R53 and R54. -/
def selectorOf (b : Byte) : Option Instr :=
  match b.toNat with
  | 0x30 => some .sel_0
  | 0x31 => some .sel_1
  | 0x32 => some .sel_2
  | 0x33 => some .sel_3
  | 0x34 => some .sel_4
  | 0x35 => some .sel_5
  | 0x36 => some .sel_6
  | 0x37 => some .sel_7
  | 0x38 => some .sel_8
  | 0x39 => some .sel_9
  | 0x61 => some .sel_a
  | 0x62 => some .sel_b
  | 0x63 => some .sel_c
  | 0x64 => some .sel_d
  | 0x65 => some .sel_e
  | 0x66 => some .sel_f
  | 0x67 => some .sel_g
  | 0x68 => some .sel_h
  | 0x69 => some .sel_i
  | 0x6A => some .sel_j
  | 0x6B => some .sel_k
  | 0x6C => some .sel_l
  | 0x6D => some .sel_m
  | 0x6E => some .sel_n
  | 0x6F => some .sel_o
  | 0x70 => some .sel_p
  | 0x71 => some .sel_q
  | 0x72 => some .sel_r
  | 0x73 => some .sel_s
  | 0x74 => some .sel_t
  | 0x75 => some .sel_u
  | 0x76 => some .sel_v
  | 0x77 => some .sel_w
  | 0x78 => some .sel_x
  | 0x79 => some .sel_y
  | 0x7A => some .sel_z
  | _ => none

/-- The command a byte is (R36, R38). Every byte is some command (R34, R39). -/
def decodeByte (c : Config) (b : Byte) : Instr :=
  match classify c b with
  | .selectPin _ => (selectorOf b).getD (.unk b)
  | .setHigh => .high
  | .setLow => .low
  | .pulseLowThenHigh _ => if b = 0x74 then .shortLow else .longLow
  | .pulseHighThenLow _ => if b = 0x54 then .shortHigh else .longHigh
  | .help => .help
  | .unknown => .unk b

/-- Why bytes do not decode: the one reason is that there is no byte (R34, R39). -/
inductive DecodeError where
  | noByte
  deriving DecidableEq, Repr

/-- Decode the first command of a byte stream, with the rest of the stream. -/
def decode (c : Config) : List Byte → Except DecodeError (Instr × List Byte)
  | [] => .error .noByte
  | b :: rest => .ok (decodeByte c b, rest)

/-- The byte a command is (R53 to R64). -/
def Instr.byte : Instr → Byte
  | .sel_0 => 0x30
  | .sel_1 => 0x31
  | .sel_2 => 0x32
  | .sel_3 => 0x33
  | .sel_4 => 0x34
  | .sel_5 => 0x35
  | .sel_6 => 0x36
  | .sel_7 => 0x37
  | .sel_8 => 0x38
  | .sel_9 => 0x39
  | .sel_a => 0x61
  | .sel_b => 0x62
  | .sel_c => 0x63
  | .sel_d => 0x64
  | .sel_e => 0x65
  | .sel_f => 0x66
  | .sel_g => 0x67
  | .sel_h => 0x68
  | .sel_i => 0x69
  | .sel_j => 0x6A
  | .sel_k => 0x6B
  | .sel_l => 0x6C
  | .sel_m => 0x6D
  | .sel_n => 0x6E
  | .sel_o => 0x6F
  | .sel_p => 0x70
  | .sel_q => 0x71
  | .sel_r => 0x72
  | .sel_s => 0x73
  | .sel_t => 0x74
  | .sel_u => 0x75
  | .sel_v => 0x76
  | .sel_w => 0x77
  | .sel_x => 0x78
  | .sel_y => 0x79
  | .sel_z => 0x7A
  | .high => 0x48
  | .low => 0x4C
  | .shortLow => 0x74
  | .shortHigh => 0x54
  | .longLow => 0x75
  | .longHigh => 0x55
  | .help => 0x3F
  | .unk op => op

/-- The words of a command: its one byte (R34). -/
def encode (i : Instr) : List Byte := [i.byte]

/-- The instruction the decoder reads from `nbits` bits of value `w`, every bit above them zero. DESIGN CHOICE (log 16): in the
configuration `State.reset` has. -/
def decodeTableWord (nbits w : Nat) : Option Instr :=
  match decode Config.atReset [BitVec.ofNat 8 (w % 2 ^ nbits)] with
  | .ok (i, _) => some i
  | .error _ => none

end Sys2Proof
end

