-- ==== Sys2Proof/Machine/Operands.lean ====
section
/-! DEFINITION. Where operands come from (R35): no command carries one; each is fixed by the opcode, looked up in the table or
read from `SEL`. -/

namespace Sys2Proof.Machine

/-- The operand of a selector command (R35): the table entry at the command byte itself. -/
def State.tablePin (s : State) (b : Byte) : Option PinRef := s.cfg.lookup b

/-- The pin `H`, `L` and the pulses act on (R35, R21): `SEL` at the start of the transition. -/
def State.pin (s : State) : PinRef := s.sel

/-- The second level of a pulse class (R35, R62); the other classes have none. -/
def secondLevel : Command → Option Level
  | .pulseLowThenHigh _ => some .high
  | .pulseHighThenLow _ => some .low
  | .selectPin _ => none
  | .setHigh => none
  | .setLow => none
  | .help => none
  | .unknown => none

/-- The duration of a pulse class in milliseconds (R35, R36); the other classes have none. -/
def duration : Command → Option Nat
  | .pulseLowThenHigh ms => some ms
  | .pulseHighThenLow ms => some ms
  | .selectPin _ => none
  | .setHigh => none
  | .setLow => none
  | .help => none
  | .unknown => none

/-- The constant an UNKNOWN byte is answered with (R35, R46, R64). -/
def unknownEcho : Byte := 0x3F

end Sys2Proof.Machine
end

