-- ==== Sys2Proof/Machine/Ops.lean ====
section
/-! DEFINITION. The named operations on the state: pin space, the cells, the events and what each does to the environment (R8), one
transition (R43), the parts of the poll cycle that belong to no command (R44, R48, R62), reset (R80) and the environment's move. -/

namespace Sys2Proof.Machine

/-! ### Pin space (R21) -/

/-- The level pin space holds at an address, `none` where nothing has driven the pin (R17 (a)). -/
def Memory.read : Memory → Nat → Option Level
  | [], _ => none
  | (k, l) :: m, a => if a = k then some l else Memory.read m a

/-- The level at an address replaced, every other kept (R21), in rising order of addresses. -/
def Memory.write : Memory → Nat → Level → Memory
  | [], a, v => [(a, v)]
  | (k, l) :: m, a, v =>
    if a < k then (a, v) :: (k, l) :: m
    else if a = k then (a, v) :: m
    else (k, l) :: Memory.write m a v

/-- The canonical form: addresses strictly rising. No entry stands for the value an unlisted address reads as, which is none. -/
abbrev Memory.wf (m : Memory) : Prop := (m.map Prod.fst).Pairwise (· < ·)

/-- `PINLVL[p]` (R17 (a)). -/
def State.level (s : State) (p : PinRef) : Option Level := s.pinlvl.read p.key

/-! ### The cells and the environment's parts, each written in one place -/

/-- `SEL <- p` (R10). -/
def State.setSel (s : State) (p : PinRef) : State := { s with sel := p }

/-- `CUR <- b`, `PHASE <- WAIT` (R57). -/
def State.beginWait (s : State) (b : Byte) : State := { s with cur := b, phase := .wait }

/-- `PHASE <- IDLE` (R62). -/
def State.endWait (s : State) : State := { s with phase := .idle }

/-- `PINLVL[p] <- some l` (R21, R76). -/
def State.drive (s : State) (p : PinRef) (l : Level) : State := { s with pinlvl := s.pinlvl.write p.key l }

/-- `TMR <- t` (R73). -/
def State.setTimer (s : State) (t : Timer) : State := { s with tmr := t }

/-- The head of the receive stream is consumed (R24). -/
def State.dropByte (s : State) : State := { s with pending := s.pending.tail }

/-- The trace grows by one cycle. -/
def State.record (s : State) (c : Cycle) : State := { s with trace := c :: s.trace }

/-! ### Events and transitions -/

/-- What one event does to the environment (R8): the receive stream (R24), the pin driver (R21, R76), the timer (R73). A byte or
text handed to the transmit stream, and a `Poll`, leave nothing but their place in the trace (log 19). -/
def perform (s : State) : Event → Host.Outcome State Fault Refusal
  | .rxTake _ => .next s.dropByte
  | .pinSet p l => if p.port < s.cfg.nPort then .next (s.drive p l) else .fault .noSuchPin
  | .tmrStart ms =>
    match s.tmr with
    | .idle => .next (s.setTimer (.running ms))
    | .running _ => .fault .timerBusy
    | .expired => .fault .timerBusy
  | .tmrDone => .next (s.setTimer .idle)
  | .txByte _ => .next s
  | .txString _ => .next s
  | .poll => .next s

/-- Go on after a next state; a fault or a refusal stays. -/
def andThen (o : Host.Outcome State Fault Refusal) (f : State → Host.Outcome State Fault Refusal) :
    Host.Outcome State Fault Refusal :=
  match o with
  | .next s => f s
  | .fault r => .fault r
  | .refused r => .refused r

/-- The events' effects, in the order of the list (R8, R28). -/
def performAll (s : State) : List Event → Host.Outcome State Fault Refusal
  | [] => .next s
  | e :: es => andThen (perform s e) fun t => performAll t es

/-- One transition that emits `events` (R43): their effects, and their cycle in the trace. -/
def transition (s : State) (events : List Event) : Host.Outcome State Fault Refusal :=
  andThen (performAll s events) fun t => .next (t.record (.ran events))

/-- `echo(e, txr)` (R46): one attempt, dropped when the transmit path is not ready (R68). -/
def echo (e : Byte) (txr : Bool) : List Event := if txr then [.txByte e] else []

/-- The attempt to send the help text (R63): all of it or nothing. -/
def sendText (text : List Byte) (txr : Bool) : List Event := if txr then [.txString text] else []

/-! ### The shared parts of the commands -/

/-- A selection (R53, R54): `SEL` takes the table's pin; no pin is driven. -/
def select (b : Byte) (s : State) : Host.Outcome State Fault Refusal :=
  match s.tablePin b with
  | some p => transition (s.setSel p) ([.rxTake b] ++ echo b s.txr ++ [.poll])
  | none => .refused .absentCommand

/-- A level command (R55, R56): the selected pin is driven, whatever level it has (R21). -/
def setLevel (b : Byte) (l : Level) (s : State) : Host.Outcome State Fault Refusal :=
  transition s ([.rxTake b, .pinSet s.pin l] ++ echo b s.txr ++ [.poll])

/-- The starting transition of a pulse (R57): no echo attempt and no `Poll`. -/
def startPulse (b : Byte) (a : Level) (ms : Nat) (s : State) : Host.Outcome State Fault Refusal :=
  transition (s.beginWait b) [.rxTake b, .pinSet s.pin a, .tmrStart ms]

/-- A command whose byte may be a selector instead (R37): then the configuration does not have the command (log 11). -/
def unlessSelector (b : Byte) (run : State → Host.Outcome State Fault Refusal) (s : State) :
    Host.Outcome State Fault Refusal :=
  match s.tablePin b with
  | some _ => .refused .absentCommand
  | none => run s

/-! ### The poll cycle outside the commands -/

/-- An iteration with nothing to do (R44). -/
def idlePoll (s : State) : Host.Outcome State Fault Refusal := transition s [.poll]

/-- A hold (R48): no event, no change. -/
def hold (s : State) : Host.Outcome State Fault Refusal := transition s []

/-- The completing transition of a pulse (R62). -/
def completePulse (s : State) : Host.Outcome State Fault Refusal :=
  match secondLevel (classify s.cfg s.cur) with
  | some l => transition s.endWait ([.tmrDone, .pinSet s.pin l] ++ echo s.cur s.txr ++ [.poll])
  | none => .fault .notAPulse

/-- One transition of R50, `run` being what the dispatcher does with a byte it takes (R45). -/
def dispatch (run : Byte → State → Host.Outcome State Fault Refusal) (s : State) : Host.Outcome State Fault Refusal :=
  match s.phase with
  | .idle =>
    match s.rx with
    | none => idlePoll s
    | some b => run b s
  | .wait => if s.done then completePulse s else hold s

/-- A cycle with `rst` = 1 (R80, R81): the cells and the timer take their reset values, no event is emitted, no byte is taken, no
pin is written. DEDUCED (log 22): the transition leaves the pending bytes alone; the move after it may lose them (log 23). -/
def State.initialise (s : State) : State :=
  { s with sel := Config.selReset, phase := .idle, cur := 0x00, tmr := .idle, trace := .reset :: s.trace }

/-- One clock edge of the dispatcher: reset overrides the transition function (R50, R70, R80). -/
def clockEdge (run : Byte → State → Host.Outcome State Fault Refusal) (s : State) : Host.Outcome State Fault Refusal :=
  if s.rst then .next s.initialise else dispatch run s

/-! ### The environment -/

/-- The timer's fire step (R73), enabled only while it runs. -/
def Timer.fire : Timer → Timer
  | .idle => .idle
  | .running _ => .expired
  | .expired => .expired

/-- How many moves are still to pass before the timer's fire step, at each move, given how many pass after each: it counts down,
and begins anew after each fire step (log 17). -/
def countdown (gap : Nat → Nat) : Nat → Nat
  | 0 => gap 0
  | n + 1 =>
    match countdown gap n with
    | 0 => gap (n + 1)
    | k + 1 => k

/-- Whether the timer takes its fire step in the `n`-th move, when it is left to free values: any way that never puts it off for
ever, which is the weak fairness of R74 (a) (log 17). -/
def freeFire (n : Nat) : Bool := decide (countdown Config.freeGap n = 0)

/-- The bytes of a queue that are not lost, in their order (R75 (a)). -/
def survivors : List Bool → List Byte → List Byte
  | [], q => q
  | _ :: _, [] => []
  | true :: ls, _ :: q => survivors ls q
  | false :: ls, b :: q => b :: survivors ls q

/-- The environment's next move: the one State lists, or free values when it lists none (log 6, log 7). -/
def State.nextMove (s : State) : EnvMove :=
  match s.env with
  | m :: _ => m
  | [] =>
    { rst := Config.freeRst s.draws, lose := Config.freeLose s.draws, arrive := Config.freeArrive s.draws
      txReady := Config.freeTxReady s.draws, fire := freeFire s.draws }

/-- The environment moves (R73, R75): some of the bytes pending may be lost, bytes arrive behind the rest, readiness and `rst`
take new levels, the timer may fire. DESIGN CHOICE (log 23): the spec leaves open whether the Transport Adapter holds or loses a
byte it has not handed over, and how many it can hold (R17 (c), R75, R85, N11); here any byte may be lost in any move, inside a
pulse, in a reset cycle or between commands, and none has to be. -/
def State.applyMove (s : State) (m : EnvMove) : State :=
  { s with
    rst := m.rst, pending := survivors m.lose s.pending ++ m.arrive, txReady := m.txReady
    tmr := if m.fire then s.tmr.fire else s.tmr
    env := s.env.tail, draws := s.draws + 1 }

/-- The environment's move between this clock edge and the next. -/
def State.envStep (s : State) : State := s.applyMove s.nextMove

/-- A step of the whole: the configuration is checked (R6, R66), the dispatcher makes its transition, the environment moves. -/
def cycle (run : Byte → State → Host.Outcome State Fault Refusal) (s : State) : Host.Outcome State Fault Refusal :=
  match s.cfg.defect? with
  | some d => .refused (.illFormedConfig d)
  | none => andThen (clockEdge run s) fun t => .next t.envStep

/-! ### Placing an instruction -/

/-- The byte placed at the head of the receive stream, and the machine made ready to take it: between commands, timer idle, no
reset (log 15). -/
def State.offer (s : State) (b : Byte) : State :=
  { s with pending := b :: s.pending, phase := .idle, tmr := .idle, rst := false }

end Sys2Proof.Machine
end

