-- ==== Sys2Proof/Machine/HelpUnknown.lean ====
section
/-! DEFINITION. The help request (R63) and the unknown bytes (R64). -/

namespace Sys2Proof.Machine

/-- `HELP` (R63): the whole text or nothing, and no echo. -/
def execHelp (s : State) : Host.Outcome State Fault Refusal :=
  transition s ([.rxTake 0x3F] ++ sendText s.cfg.helpText s.txr ++ [.poll])

/-- `UNK` (R64): the echo is 0x3F whatever the byte was. A byte that is some other command is no `UNK` (log 11). -/
def execUnk (op : Byte) (s : State) : Host.Outcome State Fault Refusal :=
  if classify s.cfg op = .unknown then transition s ([.rxTake op] ++ echo unknownEcho s.txr ++ [.poll])
  else .refused .absentCommand

end Sys2Proof.Machine
end

