-- ==== Sys2Proof/Machine/Level.lean ====
section
/-! DEFINITION. The level commands `H` and `L` (R55, R56). -/

namespace Sys2Proof.Machine

/-- `H` (R55). -/
def execHigh (s : State) : Host.Outcome State Fault Refusal := setLevel 0x48 .high s

/-- `L` (R56). -/
def execLow (s : State) : Host.Outcome State Fault Refusal := setLevel 0x4C .low s

end Sys2Proof.Machine
end

