-- ==== Sys2Proof/Machine/Pulse.lean ====
section
/-! DEFINITION. The timed-pulse commands (R57 to R61): each is the starting transition; the hold is `hold` (R48) and the
completing transition is `completePulse` (R62), which `step` makes in `PHASE = WAIT`. -/

namespace Sys2Proof.Machine

/-- `t` (R58): low, 100 ms, high; not when 0x74 is a selector (R37). -/
def execShortLow (s : State) : Host.Outcome State Fault Refusal :=
  unlessSelector 0x74 (startPulse 0x74 .low Config.tShortMs) s

/-- `T` (R59): high, 100 ms, low. -/
def execShortHigh (s : State) : Host.Outcome State Fault Refusal := startPulse 0x54 .high Config.tShortMs s

/-- `u` (R60): low, 1000 ms, high; not when 0x75 is a selector (R37). -/
def execLongLow (s : State) : Host.Outcome State Fault Refusal :=
  unlessSelector 0x75 (startPulse 0x75 .low Config.tLongMs) s

/-- `U` (R61): high, 1000 ms, low. -/
def execLongHigh (s : State) : Host.Outcome State Fault Refusal := startPulse 0x55 .high Config.tLongMs s

end Sys2Proof.Machine
end

