-- ==== Sys2Proof/Machine/Select.lean ====
section
/-! DEFINITION. The selector commands (R53, R54), one per selector character. -/

namespace Sys2Proof.Machine

/-- `SEL_0` (R53). -/
def execSel_0 (s : State) : Host.Outcome State Fault Refusal := select 0x30 s

/-- `SEL_1` (R53). -/
def execSel_1 (s : State) : Host.Outcome State Fault Refusal := select 0x31 s

/-- `SEL_2` (R53). -/
def execSel_2 (s : State) : Host.Outcome State Fault Refusal := select 0x32 s

/-- `SEL_3` (R53). -/
def execSel_3 (s : State) : Host.Outcome State Fault Refusal := select 0x33 s

/-- `SEL_4` (R53). -/
def execSel_4 (s : State) : Host.Outcome State Fault Refusal := select 0x34 s

/-- `SEL_5` (R53). -/
def execSel_5 (s : State) : Host.Outcome State Fault Refusal := select 0x35 s

/-- `SEL_6` (R53). -/
def execSel_6 (s : State) : Host.Outcome State Fault Refusal := select 0x36 s

/-- `SEL_7` (R53). -/
def execSel_7 (s : State) : Host.Outcome State Fault Refusal := select 0x37 s

/-- `SEL_8` (R53). -/
def execSel_8 (s : State) : Host.Outcome State Fault Refusal := select 0x38 s

/-- `SEL_9` (R53). -/
def execSel_9 (s : State) : Host.Outcome State Fault Refusal := select 0x39 s

/-- `SEL_a` (R54). -/
def execSel_a (s : State) : Host.Outcome State Fault Refusal := select 0x61 s

/-- `SEL_b` (R54). -/
def execSel_b (s : State) : Host.Outcome State Fault Refusal := select 0x62 s

/-- `SEL_c` (R54). -/
def execSel_c (s : State) : Host.Outcome State Fault Refusal := select 0x63 s

/-- `SEL_d` (R54). -/
def execSel_d (s : State) : Host.Outcome State Fault Refusal := select 0x64 s

/-- `SEL_e` (R54). -/
def execSel_e (s : State) : Host.Outcome State Fault Refusal := select 0x65 s

/-- `SEL_f` (R54). -/
def execSel_f (s : State) : Host.Outcome State Fault Refusal := select 0x66 s

/-- `SEL_g` (R54). -/
def execSel_g (s : State) : Host.Outcome State Fault Refusal := select 0x67 s

/-- `SEL_h` (R54). -/
def execSel_h (s : State) : Host.Outcome State Fault Refusal := select 0x68 s

/-- `SEL_i` (R54). -/
def execSel_i (s : State) : Host.Outcome State Fault Refusal := select 0x69 s

/-- `SEL_j` (R54). -/
def execSel_j (s : State) : Host.Outcome State Fault Refusal := select 0x6A s

/-- `SEL_k` (R54). -/
def execSel_k (s : State) : Host.Outcome State Fault Refusal := select 0x6B s

/-- `SEL_l` (R54). -/
def execSel_l (s : State) : Host.Outcome State Fault Refusal := select 0x6C s

/-- `SEL_m` (R54). -/
def execSel_m (s : State) : Host.Outcome State Fault Refusal := select 0x6D s

/-- `SEL_n` (R54). -/
def execSel_n (s : State) : Host.Outcome State Fault Refusal := select 0x6E s

/-- `SEL_o` (R54). -/
def execSel_o (s : State) : Host.Outcome State Fault Refusal := select 0x6F s

/-- `SEL_p` (R54). -/
def execSel_p (s : State) : Host.Outcome State Fault Refusal := select 0x70 s

/-- `SEL_q` (R54). -/
def execSel_q (s : State) : Host.Outcome State Fault Refusal := select 0x71 s

/-- `SEL_r` (R54). -/
def execSel_r (s : State) : Host.Outcome State Fault Refusal := select 0x72 s

/-- `SEL_s` (R54). -/
def execSel_s (s : State) : Host.Outcome State Fault Refusal := select 0x73 s

/-- `SEL_t` (R54). -/
def execSel_t (s : State) : Host.Outcome State Fault Refusal := select 0x74 s

/-- `SEL_u` (R54). -/
def execSel_u (s : State) : Host.Outcome State Fault Refusal := select 0x75 s

/-- `SEL_v` (R54). -/
def execSel_v (s : State) : Host.Outcome State Fault Refusal := select 0x76 s

/-- `SEL_w` (R54). -/
def execSel_w (s : State) : Host.Outcome State Fault Refusal := select 0x77 s

/-- `SEL_x` (R54). -/
def execSel_x (s : State) : Host.Outcome State Fault Refusal := select 0x78 s

/-- `SEL_y` (R54). -/
def execSel_y (s : State) : Host.Outcome State Fault Refusal := select 0x79 s

/-- `SEL_z` (R54). -/
def execSel_z (s : State) : Host.Outcome State Fault Refusal := select 0x7A s

end Sys2Proof.Machine
end

