-- ==== Sys2Proof/Machine/Dispatch.lean ====
section
/-! DEFINITION. Which meaning each command has: one arm per row of spec/opcode_table.json. -/

namespace Sys2Proof.Machine

def exec (i : Instr) (s : State) : Host.Outcome State Fault Refusal :=
  match i with
  | .sel_0 => Sys2Proof.Machine.execSel_0 s
  | .sel_1 => Sys2Proof.Machine.execSel_1 s
  | .sel_2 => Sys2Proof.Machine.execSel_2 s
  | .sel_3 => Sys2Proof.Machine.execSel_3 s
  | .sel_4 => Sys2Proof.Machine.execSel_4 s
  | .sel_5 => Sys2Proof.Machine.execSel_5 s
  | .sel_6 => Sys2Proof.Machine.execSel_6 s
  | .sel_7 => Sys2Proof.Machine.execSel_7 s
  | .sel_8 => Sys2Proof.Machine.execSel_8 s
  | .sel_9 => Sys2Proof.Machine.execSel_9 s
  | .sel_a => Sys2Proof.Machine.execSel_a s
  | .sel_b => Sys2Proof.Machine.execSel_b s
  | .sel_c => Sys2Proof.Machine.execSel_c s
  | .sel_d => Sys2Proof.Machine.execSel_d s
  | .sel_e => Sys2Proof.Machine.execSel_e s
  | .sel_f => Sys2Proof.Machine.execSel_f s
  | .sel_g => Sys2Proof.Machine.execSel_g s
  | .sel_h => Sys2Proof.Machine.execSel_h s
  | .sel_i => Sys2Proof.Machine.execSel_i s
  | .sel_j => Sys2Proof.Machine.execSel_j s
  | .sel_k => Sys2Proof.Machine.execSel_k s
  | .sel_l => Sys2Proof.Machine.execSel_l s
  | .sel_m => Sys2Proof.Machine.execSel_m s
  | .sel_n => Sys2Proof.Machine.execSel_n s
  | .sel_o => Sys2Proof.Machine.execSel_o s
  | .sel_p => Sys2Proof.Machine.execSel_p s
  | .sel_q => Sys2Proof.Machine.execSel_q s
  | .sel_r => Sys2Proof.Machine.execSel_r s
  | .sel_s => Sys2Proof.Machine.execSel_s s
  | .sel_t => Sys2Proof.Machine.execSel_t s
  | .sel_u => Sys2Proof.Machine.execSel_u s
  | .sel_v => Sys2Proof.Machine.execSel_v s
  | .sel_w => Sys2Proof.Machine.execSel_w s
  | .sel_x => Sys2Proof.Machine.execSel_x s
  | .sel_y => Sys2Proof.Machine.execSel_y s
  | .sel_z => Sys2Proof.Machine.execSel_z s
  | .high => Sys2Proof.Machine.execHigh s
  | .low => Sys2Proof.Machine.execLow s
  | .shortLow => Sys2Proof.Machine.execShortLow s
  | .shortHigh => Sys2Proof.Machine.execShortHigh s
  | .longLow => Sys2Proof.Machine.execLongLow s
  | .longHigh => Sys2Proof.Machine.execLongHigh s
  | .help => Sys2Proof.Machine.execHelp s
  | .unk op => Sys2Proof.Machine.execUnk op s

end Sys2Proof.Machine
end

