-- ==== Sys2Proof/Machine/Step.lean ====
section
/-! DEFINITION. One step: the transition function of R50 over the commands, with the environment's move; and the placing of one
instruction where the next step takes it. -/

namespace Sys2Proof.Machine

/-- One step of the machine (R43, R50). -/
def step (s : State) : Host.Outcome State Fault Refusal :=
  cycle (fun b t => exec (decodeByte t.cfg b) t) s

/-- The instruction whose `nbits` bits are `w`, offered as the next byte of the receive stream (log 15). -/
def State.withFetchWord (s : State) (nbits w : Nat) : State := s.offer (BitVec.ofNat 8 (w % 2 ^ nbits))

end Sys2Proof.Machine
end

