-- ==== Sys2Proof/Machine/Ports.lean ====
section
/-! DEFINITION. The ports of the hardware reading (R16), as views of the state: the input ports at the coming clock edge, and the
output ports during the cycle of the newest trace entry. -/

namespace Sys2Proof.Machine

/-- The events of the newest cycle; none after reset (R18, R80). -/
def State.out (s : State) : List Event :=
  match s.trace with
  | .ran es :: _ => es
  | .reset :: _ => []
  | [] => []

/-- Input port `rx_valid` (R16). -/
def State.rxValid (s : State) : Bool := s.rx.isSome

/-- Input port `tmr_done` (R16, R72): a level. -/
def State.tmrDone (s : State) : Bool := s.done

/-- Output port `rx_take`. -/
def rxTakePort : List Event → Bool
  | [] => false
  | .rxTake _ :: _ => true
  | _ :: es => rxTakePort es

/-- Output ports `tx_valid` and `tx_data`: the byte while the strobe is 1. -/
def txPort : List Event → Option Byte
  | [] => none
  | .txByte b :: _ => some b
  | _ :: es => txPort es

/-- Output port `tx_help`. -/
def txHelpPort : List Event → Bool
  | [] => false
  | .txString _ :: _ => true
  | _ :: es => txHelpPort es

/-- Output port `svc`. -/
def svcPort : List Event → Bool
  | [] => false
  | .poll :: _ => true
  | _ :: es => svcPort es

/-- Output ports `pin_we`, `pin_port`, `pin_bit` and `pin_level`: the write while the strobe is 1. -/
def pinPort : List Event → Option (PinRef × Level)
  | [] => none
  | .pinSet p l :: _ => some (p, l)
  | _ :: es => pinPort es

/-- Output ports `tmr_start` and `tmr_ms`: the duration, in 10 bits (R16, R72), while the strobe is 1. -/
def tmrPort : List Event → Option (BitVec 10)
  | [] => none
  | .tmrStart ms :: _ => some (BitVec.ofNat 10 ms)
  | _ :: es => tmrPort es

end Sys2Proof.Machine
end

