-- ==== Sys2Proof/Safety.lean ====
section
/-! DEFINITION. What counts as a sound state and a lawful trace, in the terms the claims use: the invariants of R13, the
readings of the trace that R52 compares the state with, and the commands by family. -/

namespace Sys2Proof

/-- The ten digit selector commands of R53. -/
def digitCommands : List Instr :=
  [.sel_0, .sel_1, .sel_2, .sel_3, .sel_4, .sel_5, .sel_6, .sel_7, .sel_8, .sel_9]

/-- The 26 letter selector commands of R54, each with its `k`. -/
def letterCommands : List (Nat × Instr) :=
  [(1, .sel_a), (2, .sel_b), (3, .sel_c), (4, .sel_d), (5, .sel_e), (6, .sel_f), (7, .sel_g),
   (8, .sel_h), (9, .sel_i), (10, .sel_j), (11, .sel_k), (12, .sel_l), (13, .sel_m), (14, .sel_n),
   (15, .sel_o), (16, .sel_p), (17, .sel_q), (18, .sel_r), (19, .sel_s), (20, .sel_t),
   (21, .sel_u), (22, .sel_v), (23, .sel_w), (24, .sel_x), (25, .sel_y), (26, .sel_z)]

end Sys2Proof

namespace Sys2Proof.Machine

/-- The invariants of R13 (a) to (d), with the well-formedness of the configuration (R6), the request the timer holds (R57) and
the canonical form of pin space. (R13 (e) is about a transition, not a state.) -/
structure State.Inv (s : State) : Prop where
  /-- R6: the configuration is well formed. -/
  cfgWf : s.cfg.wf
  /-- R13 (a): the selected port exists. -/
  portExists : s.sel.port < s.cfg.nPort
  /-- R13 (b): the selection is the reset default or a value of the table. -/
  selFromTable : s.sel = Config.selReset ∨ ∃ b, s.cfg.lookup b = some s.sel
  /-- R13 (c): in `WAIT`, `CUR` is a pulse command. -/
  waitIsPulse : s.phase = .wait → (secondLevel (classify s.cfg s.cur)).isSome
  /-- R13 (d): a timer request is outstanding exactly in `WAIT`. -/
  timerOutstanding : s.phase = .wait ↔ s.tmr ≠ .idle
  /-- R57: the duration the timer runs is that of the pulse in progress. -/
  timerDuration : ∀ ms, s.tmr = .running ms → duration (classify s.cfg s.cur) = some ms
  /-- The canonical form of pin space. -/
  pinsCanonical : s.pinlvl.wf
  /-- R21, R76: only pins of ports that exist have been driven. -/
  pinsExist : ∀ e ∈ s.pinlvl, e.1 < 8 * s.cfg.nPort

/-! ### Readings of the trace -/

/-- The cycles since the last reset, newest first, each as its events in order. -/
def sinceReset : List Cycle → List (List Event)
  | [] => []
  | .reset :: _ => []
  | .ran es :: cs => es :: sinceReset cs

/-- The level of a pin after some events, given its level before. -/
def levelAfter (p : PinRef) (before : Option Level) : List Event → Option Level
  | [] => before
  | .pinSet q l :: es => levelAfter p (if q = p then some l else before) es
  | _ :: es => levelAfter p before es

/-- The level of a pin by the trace alone: that of the last `PinSet` that names it, none if there was none. A reset writes no
pin (R80). -/
def tracedLevel (p : PinRef) : List Cycle → Option Level
  | [] => none
  | .ran es :: cs => levelAfter p (tracedLevel p cs) es
  | .reset :: cs => tracedLevel p cs

/-- The selection after some events, given that before: the table's pin for the last selector byte taken. -/
def selectionAfter (c : Config) (before : PinRef) : List Event → PinRef
  | [] => before
  | .rxTake b :: es => selectionAfter c ((c.lookup b).getD before) es
  | _ :: es => selectionAfter c before es

/-- The selection by the trace alone (R52 (g)): `PIN_TABLE` of the last selector byte since reset, or `SEL_RESET`. -/
def tracedSelection (c : Config) : List Cycle → PinRef
  | [] => Config.selReset
  | .ran es :: cs => selectionAfter c (tracedSelection c cs) es
  | .reset :: _ => Config.selReset

/-- What the law of R52 (e) says of a trace so far. -/
inductive TimerLaw where
  /-- No delay is outstanding. -/
  | quiet
  /-- A delay has been started and no event has followed. -/
  | outstanding (ms : Nat)
  /-- The law has been broken. -/
  | broken
  deriving DecidableEq, Repr

/-- R52 (e), one event: a start only when quiet, a done only when outstanding, nothing else while outstanding. -/
def TimerLaw.next : TimerLaw → Event → TimerLaw
  | .quiet, .tmrStart ms => .outstanding ms
  | .quiet, .tmrDone => .broken
  | .quiet, _ => .quiet
  | .outstanding _, .tmrDone => .quiet
  | .outstanding _, _ => .broken
  | .broken, _ => .broken

/-- R52 (e) over the trace since reset. -/
def tracedTimer : List Cycle → TimerLaw
  | [] => .quiet
  | .ran es :: cs => es.foldl TimerLaw.next (tracedTimer cs)
  | .reset :: _ => .quiet

/-- A transmit event. -/
def Event.isTransmit : Event → Bool
  | .txByte _ => true
  | .txString _ => true
  | .rxTake _ => false
  | .pinSet _ _ => false
  | .tmrStart _ => false
  | .tmrDone => false
  | .poll => false

/-- A byte consumed. -/
def Event.isTake : Event → Bool
  | .rxTake _ => true
  | .txByte _ => false
  | .txString _ => false
  | .pinSet _ _ => false
  | .tmrStart _ => false
  | .tmrDone => false
  | .poll => false

/-- A `Poll`. -/
def Event.isPoll : Event → Bool
  | .poll => true
  | .rxTake _ => false
  | .txByte _ => false
  | .txString _ => false
  | .pinSet _ _ => false
  | .tmrStart _ => false
  | .tmrDone => false

/-- How many events since reset a test holds for. -/
def countSinceReset (test : Event → Bool) (t : List Cycle) : Nat :=
  ((sinceReset t).map fun es => es.countP test).sum

/-- How many iterations since reset had nothing to do (R44): the cycles that are `[Poll]`. -/
def idleIterations (t : List Cycle) : Nat := (sinceReset t).countP fun es => decide (es = [.poll])

/-- One while a command is in progress between its transitions, else zero. -/
def State.inFlight (s : State) : Nat :=
  match s.phase with
  | .idle => 0
  | .wait => 1

/-- R52 (e) together with where the dispatcher is: between commands no delay is outstanding; inside a pulse one is, of the
duration of the pulse in progress. -/
def State.TimerLawful (s : State) : Prop :=
  match s.phase with
  | .idle => tracedTimer s.trace = .quiet
  | .wait => ∃ ms, duration (classify s.cfg s.cur) = some ms ∧ tracedTimer s.trace = .outstanding ms

/-- R52 (c): one `Poll` per completed iteration, a byte's or an idle one. -/
def State.PollLawful (s : State) : Prop :=
  countSinceReset Event.isPoll s.trace + s.inFlight = countSinceReset Event.isTake s.trace + idleIterations s.trace

/-- 95_test_vectors.md section 4, property 1, sharpened: a command in progress has transmitted nothing yet. -/
def State.TransmitLawful (s : State) : Prop :=
  countSinceReset Event.isTransmit s.trace + s.inFlight ≤ countSinceReset Event.isTake s.trace

/-- The bytes some events hand to the transmit stream, in order (R24). -/
def transmittedBy : List Event → List Byte
  | [] => []
  | .txByte b :: es => b :: transmittedBy es
  | .txString text :: es => text ++ transmittedBy es
  | _ :: es => transmittedBy es

/-- The transmit stream (R24): every byte handed over since power-up, oldest first. -/
def transmitted : List Cycle → List Byte
  | [] => []
  | .ran es :: cs => transmitted cs ++ transmittedBy es
  | .reset :: cs => transmitted cs

/-- The echo a byte gets when the transmit path is ready and it is not HELP (R46): the byte, or 0x3F for UNKNOWN. -/
def echoOf (c : Config) (b : Byte) : Byte := if classify c b = .unknown then 0x3F else b

/-- R52 (a): after a transmit event of a cycle there is no `PinSet` and no second transmit event. -/
def transmitLast : List Event → Prop
  | [] => True
  | e :: es => (e.isTransmit = true → ∀ e' ∈ es, e'.isTransmit = false ∧ ∀ p l, e' ≠ .pinSet p l) ∧ transmitLast es

/-! ### Runs -/

/-- A move in which nothing happens but the levels given: no reset, no byte is lost, none arrives. -/
def quietMove (txReady fire : Bool) : EnvMove := { rst := false, lose := [], arrive := [], txReady := txReady, fire := fire }

/-- The timer's fire step is enabled (R73). -/
def State.FireEnabled (s : State) : Prop := ∃ ms, s.tmr = .running ms

/-- R74 (a), weak fairness of the fire step, seen from a state in which it is enabled: after finitely many steps, the step enabled
in every state up to there, it is taken, or a reset cycle ends the delay (R81). -/
def State.FireIsFair (s : State) : Prop :=
  ∃ k t u, core.run k s = .next t ∧ (∀ j r, j ≤ k → core.run j s = .next r → r.FireEnabled) ∧
    step t = .next u ∧ (u.tmr = .expired ∨ (t.rst = true ∧ u.tmr = .idle))

/-- What the outside sees alike in two states (R15): all but the selection, the pins, and the trace's record of them. -/
structure SameToHost (s t : State) : Prop where
  cfg : s.cfg = t.cfg
  cur : s.cur = t.cur
  phase : s.phase = t.phase
  tmr : s.tmr = t.tmr
  pending : s.pending = t.pending
  txReady : s.txReady = t.txReady
  rst : s.rst = t.rst
  sent : transmitted s.trace = transmitted t.trace
  env : s.env = t.env
  draws : s.draws = t.draws

end Sys2Proof.Machine
end

