-- ==== Sys2Proof/Certificates/Slice0/Obligations.lean ====
section
/-! DEFINITION. The statements for the provers, in the order of OBLIGATIONS.json. -/

open Sys2Proof Sys2Proof.Machine

namespace Sys2Proof

/-- R6, the four clauses as the spec writes them, over the table as a function. -/
def ConfigAllowed (n ports : Nat) (table : Byte → Option PinRef) (help : List Byte) : Prop :=
  (n ≤ 26 ∧ 1 ≤ ports) ∧
  (∀ b : Byte, (table b).isSome = true ↔
    (0x30 ≤ b.toNat ∧ b.toNat ≤ 0x39) ∨ (0x61 ≤ b.toNat ∧ b.toNat ≤ 0x60 + n)) ∧
  (∀ b p, table b = some p → p.port < ports ∧ p.bit.val ≤ 7) ∧
  (∀ b ∈ help, b.toNat < 0x80)

/-- The rule of a pulse command `i` with byte `b`, class `cls`, levels `first` and `second` and duration `ms`, in configurations
with `present`: the byte is that command and has that class; the starting transition is exactly R57's; a pulse whose `CUR` is `b`
holds with no event until the timer is done (R48), and its completing transition is exactly R62's. The split of a pulse over
transitions, with `CUR` and `PHASE`, is the spec's own choice D4, and the timer's interface its own D10. -/
def PulseCommand (i : Instr) (b : Byte) (cls : Command) (first second : Level) (ms : Nat) (present : Config → Prop) : Prop :=
  (∀ c : Config, c.wf → present c → decodeByte c b = i ∧ classify c b = cls) ∧
  (∀ s : State, s.cfg.wf → present s.cfg → s.sel.port < s.cfg.nPort → s.tmr = .idle →
    exec i s = .next
      { s with
        cur := b, phase := .wait, pinlvl := s.pinlvl.write s.sel.key first, tmr := .running ms
        pending := s.pending.tail
        trace := .ran [.rxTake b, .pinSet s.sel first, .tmrStart ms] :: s.trace }) ∧
  (∀ s : State, s.cfg.wf → present s.cfg → s.rst = false → s.phase = .wait → s.cur = b → s.tmr ≠ .expired →
    step s = .next (State.envStep { s with trace := .ran [] :: s.trace })) ∧
  (∀ s : State, s.cfg.wf → present s.cfg → s.sel.port < s.cfg.nPort → s.rst = false →
    s.phase = .wait → s.cur = b → s.tmr = .expired →
    step s = .next (State.envStep
      { s with
        phase := .idle, pinlvl := s.pinlvl.write s.sel.key second, tmr := .idle
        trace := .ran ([.tmrDone, .pinSet s.sel second] ++ (if s.txReady then [.txByte b] else []) ++ [.poll]) ::
          s.trace }))

end Sys2Proof

/-! ### Configuration and encoding -/

/-- R6: the well-formed configurations of the model are exactly those of the four clauses: each meets them, and each choice of
parameters that meets them is some configuration of the model (the model writes the table as a list of entries, log 3). -/
def Obligations.ConfigurationsAreThoseAllowed : Prop :=
  (∀ c : Config, c.wf → ConfigAllowed c.nLetter c.nPort c.lookup c.helpText) ∧
  (∀ n ports table help, ConfigAllowed n ports table help →
    ∃ c : Config, c.wf ∧ c.nLetter = n ∧ c.nPort = ports ∧ (∀ b, c.lookup b = table b) ∧ c.helpText = help)

/-- R5, the row `PORT_W`: the least width of at least 1 that holds every port number (D12). -/
def Obligations.PortWidthIsLeast : Prop :=
  ∀ c : Config, 1 ≤ c.portW ∧ c.nPort ≤ 2 ^ c.portW ∧ ∀ w, 1 ≤ w → c.nPort ≤ 2 ^ w → c.portW ≤ w

/-- Decoding the byte of a command the configuration has gives the command back, and the rest of the stream with it
(R34, R36, R38). -/
def Obligations.DecodeOfEncodeIsIdentity : Prop :=
  ∀ (c : Config) (i : Instr) (rest : List Byte), c.wf → i.wf c → decode c (encode i ++ rest) = .ok (i, rest)

/-- Every byte is a complete command, that command exists in the configuration, and it is the only one with that byte
(R34, R36, R39). -/
def Obligations.EveryByteIsOneCommand : Prop :=
  ∀ (c : Config) (b : Byte) (rest : List Byte), c.wf →
    ∃ i, decode c (b :: rest) = .ok (i, rest) ∧ i.wf c ∧ encode i = [b] ∧ ∀ j, j.wf c → encode j = [b] → j = i

/-- A few bytes of each family, in the two fixtures of 95_test_vectors.md section 2.7. -/
def Obligations.WorkedBytesDecode : Prop :=
  decodeByte Config.fixtureTC1 0x30 = .sel_0 ∧ decodeByte Config.fixtureTC1 0x66 = .sel_f ∧
  decodeByte Config.fixtureTC1 0x67 = .unk 0x67 ∧ decodeByte Config.fixtureTC1 0x48 = .high ∧
  decodeByte Config.fixtureTC1 0x4C = .low ∧ decodeByte Config.fixtureTC1 0x74 = .shortLow ∧
  decodeByte Config.fixtureTC2 0x74 = .sel_t ∧ decodeByte Config.fixtureTC1 0x54 = .shortHigh ∧
  decodeByte Config.fixtureTC1 0x75 = .longLow ∧ decodeByte Config.fixtureTC2 0x55 = .longHigh ∧
  decodeByte Config.fixtureTC1 0x3F = .help ∧ decodeByte Config.fixtureTC2 0x7B = .unk 0x7B

/-- R36 and R38: the class of every byte, in every well-formed configuration. -/
def Obligations.ClassOfEveryByte : Prop :=
  ∀ c : Config, c.wf →
    (∀ b : Byte, (0x30 ≤ b.toNat ∧ b.toNat ≤ 0x39) ∨ (0x61 ≤ b.toNat ∧ b.toNat ≤ 0x60 + c.nLetter) →
      ∃ p, c.lookup b = some p ∧ classify c b = .selectPin p) ∧
    classify c 0x48 = .setHigh ∧ classify c 0x4C = .setLow ∧
    (c.nLetter ≤ 19 → classify c 0x74 = .pulseLowThenHigh 100) ∧
    classify c 0x54 = .pulseHighThenLow 100 ∧
    (c.nLetter ≤ 20 → classify c 0x75 = .pulseLowThenHigh 1000) ∧
    classify c 0x55 = .pulseHighThenLow 1000 ∧ classify c 0x3F = .help ∧
    (∀ b : Byte, isUnknownByte c.nLetter b → classify c b = .unknown)

/-- R37: the table is tried first, so with 20 letters `t` and with 21 letters `u` are selectors; the other operations never
are. -/
def Obligations.SelectorTakesPriorityOverPulse : Prop :=
  ∀ c : Config, c.wf →
    decodeByte c 0x74 = (if 20 ≤ c.nLetter then .sel_t else .shortLow) ∧
    decodeByte c 0x75 = (if 21 ≤ c.nLetter then .sel_u else .longLow) ∧
    decodeByte c 0x48 = .high ∧ decodeByte c 0x4C = .low ∧ decodeByte c 0x54 = .shortHigh ∧
    decodeByte c 0x55 = .longHigh ∧ decodeByte c 0x3F = .help

/-- R38, the counts for at most 19 letters: 10 + n selectors, 256 - 17 - n unknown bytes. -/
def Obligations.ClassSizes : Prop :=
  ∀ c : Config, c.wf → c.nLetter ≤ 19 →
    (List.range 256).countP (fun k => (c.lookup (BitVec.ofNat 8 k)).isSome) = 10 + c.nLetter ∧
    (List.range 256).countP (fun k => decide (classify c (BitVec.ofNat 8 k) = .unknown)) = 239 - c.nLetter

/-! ### The commands -/

/-- R53: each digit selector executes in every state with a well-formed configuration; `SEL` takes the table's pin, the byte is
consumed, the echo is attempted, `Poll` comes last, and nothing else changes. -/
def Obligations.DigitSelectorsSelect : Prop :=
  digitCommands.map Instr.byte = [0x30, 0x31, 0x32, 0x33, 0x34, 0x35, 0x36, 0x37, 0x38, 0x39] ∧
  ∀ (s : State) (i : Instr), s.cfg.wf → i ∈ digitCommands →
    ∃ p, s.cfg.lookup i.byte = some p ∧
      exec i s = .next
        { s with
          sel := p, pending := s.pending.tail
          trace := .ran ([.rxTake i.byte] ++ (if s.txReady then [.txByte i.byte] else []) ++ [.poll]) :: s.trace }

/-- R54: the `k`-th letter's byte is 0x60 + k; when the configuration has `k` letters its command executes as R53's do; when it
has fewer, the byte is the command of the rule's last column. -/
def Obligations.LetterSelectorsSelect : Prop :=
  ∀ (k : Nat) (i : Instr), (k, i) ∈ letterCommands →
    i.byte.toNat = 0x60 + k ∧
    (∀ s : State, s.cfg.wf → k ≤ s.cfg.nLetter →
      ∃ p, s.cfg.lookup i.byte = some p ∧
        exec i s = .next
          { s with
            sel := p, pending := s.pending.tail
            trace := .ran ([.rxTake i.byte] ++ (if s.txReady then [.txByte i.byte] else []) ++ [.poll]) :: s.trace }) ∧
    (∀ c : Config, c.wf → c.nLetter < k →
      decodeByte c i.byte = if k = 20 then .shortLow else if k = 21 then .longLow else .unk i.byte)

/-- R55: 0x48 is `H` in every configuration, and `H` executes whenever the selected port exists: the selected pin becomes high,
whatever it was, then the echo attempt and `Poll`; nothing else changes. -/
def Obligations.HDrivesSelectedPinHigh : Prop :=
  (∀ c : Config, c.wf → decodeByte c 0x48 = .high) ∧
  ∀ s : State, s.sel.port < s.cfg.nPort →
    exec .high s = .next
      { s with
        pinlvl := s.pinlvl.write s.sel.key .high, pending := s.pending.tail
        trace := .ran ([.rxTake 0x48, .pinSet s.sel .high] ++ (if s.txReady then [.txByte 0x48] else []) ++ [.poll]) ::
          s.trace }

/-- R56: `L`, as R55 with the level exchanged. -/
def Obligations.LDrivesSelectedPinLow : Prop :=
  (∀ c : Config, c.wf → decodeByte c 0x4C = .low) ∧
  ∀ s : State, s.sel.port < s.cfg.nPort →
    exec .low s = .next
      { s with
        pinlvl := s.pinlvl.write s.sel.key .low, pending := s.pending.tail
        trace := .ran ([.rxTake 0x4C, .pinSet s.sel .low] ++ (if s.txReady then [.txByte 0x4C] else []) ++ [.poll]) ::
          s.trace }

/-- R58: `t`, low for 100 ms and then high, in configurations of at most 19 letters; with 20 the byte is `SEL_t`. (The split over
transitions is the spec's own D4, D10.) -/
def Obligations.ShortLowPulse : Prop :=
  PulseCommand .shortLow 0x74 (.pulseLowThenHigh 100) .low .high 100 (fun c => c.nLetter ≤ 19) ∧
  ∀ c : Config, c.wf → 20 ≤ c.nLetter → decodeByte c 0x74 = .sel_t

/-- R59: `T`, high for 100 ms and then low, in every configuration. (The split over
transitions is the spec's own D4, D10.) -/
def Obligations.ShortHighPulse : Prop :=
  PulseCommand .shortHigh 0x54 (.pulseHighThenLow 100) .high .low 100 (fun _ => True)

/-- R60: `u`, low for 1000 ms and then high, in configurations of at most 20 letters; with 21 the byte is `SEL_u`. (The split over
transitions is the spec's own D4, D10.) -/
def Obligations.LongLowPulse : Prop :=
  PulseCommand .longLow 0x75 (.pulseLowThenHigh 1000) .low .high 1000 (fun c => c.nLetter ≤ 20) ∧
  ∀ c : Config, c.wf → 21 ≤ c.nLetter → decodeByte c 0x75 = .sel_u

/-- R61: `U`, high for 1000 ms and then low, in every configuration. (The split over
transitions is the spec's own D4, D10.) -/
def Obligations.LongHighPulse : Prop :=
  PulseCommand .longHigh 0x55 (.pulseHighThenLow 1000) .high .low 1000 (fun _ => True)

/-- R63: 0x3F is HELP in every configuration, and HELP executes in every state: the whole text when the transmit path is ready,
nothing otherwise, and never an echo. -/
def Obligations.HelpSendsWholeTextOrNothing : Prop :=
  (∀ c : Config, c.wf → decodeByte c 0x3F = .help) ∧
  ∀ s : State,
    exec .help s = .next
      { s with
        pending := s.pending.tail
        trace := .ran ([.rxTake 0x3F] ++ (if s.txReady then [.txString s.cfg.helpText] else []) ++ [.poll]) :: s.trace }

/-- R64: a byte that matches no other class is UNK, which answers 0x3F and changes nothing but the consumed byte; with at most 19
letters there are 239 less the letters of them. -/
def Obligations.UnknownByteIsAnsweredQuestionMark : Prop :=
  (∀ (s : State) (op : Byte), s.cfg.wf → isUnknownByte s.cfg.nLetter op →
    decodeByte s.cfg op = .unk op ∧
    exec (.unk op) s = .next
      { s with
        pending := s.pending.tail
        trace := .ran ([.rxTake op] ++ (if s.txReady then [.txByte 0x3F] else []) ++ [.poll]) :: s.trace }) ∧
  (∀ n, n ≤ 19 → (List.range 256).countP (fun k => decide (isUnknownByte n (BitVec.ofNat 8 k))) = 239 - n)

/-- The frame of the commands that drive no pin (SEL_0 to SEL_9, SEL_a to SEL_z, HELP, UNK): every cell, input and pin but the
selection of a SELECT, the consumed byte and the trace is unchanged. -/
def Obligations.FrameOfCommandsWithoutPinEffect : Prop :=
  ∀ (i : Instr) (s t : State),
    (i ∈ digitCommands ∨ i ∈ letterCommands.map Prod.snd ∨ i = .help ∨ ∃ op, i = .unk op) → exec i s = .next t →
      (i = .help ∨ (∃ op, i = .unk op) → t.sel = s.sel) ∧
      t.cur = s.cur ∧ t.phase = s.phase ∧ t.tmr = s.tmr ∧ t.cfg = s.cfg ∧ t.txReady = s.txReady ∧ t.rst = s.rst ∧
      t.env = s.env ∧ t.draws = s.draws ∧ t.pending = s.pending.tail ∧
      (∀ a, t.pinlvl.read a = s.pinlvl.read a) ∧ (∀ p, t.level p = s.level p)

/-- The frame of the commands that drive a pin (H, L, t, T, u, U): the selection and every pin but the selected one, at the
address the command computes, are unchanged; H and L leave CUR, PHASE and the timer too. -/
def Obligations.FrameOfCommandsWithPinEffect : Prop :=
  ∀ (i : Instr) (s t : State),
    i ∈ ([.high, .low, .shortLow, .shortHigh, .longLow, .longHigh] : List Instr) → exec i s = .next t →
      (i = .high ∨ i = .low → t.cur = s.cur ∧ t.phase = s.phase ∧ t.tmr = s.tmr) ∧
      t.sel = s.sel ∧ t.cfg = s.cfg ∧ t.txReady = s.txReady ∧ t.rst = s.rst ∧ t.env = s.env ∧ t.draws = s.draws ∧
      t.pending = s.pending.tail ∧
      (∀ a, a ≠ s.sel.key → t.pinlvl.read a = s.pinlvl.read a) ∧ (∀ p, p ≠ s.sel → t.level p = s.level p)

/-- Where a command stops in the model (logs 11 and 12; the spec has no such state, R66, R76, U15): a selected port that does
not exist, a busy timer, a command the configuration does not have. -/
def Obligations.WhereCommandsStop : Prop :=
  ∀ s : State,
    (∀ i ∈ ([.high, .low, .shortHigh, .longHigh] : List Instr), s.cfg.nPort ≤ s.sel.port →
      exec i s = .fault .noSuchPin) ∧
    (∀ i ∈ ([.shortLow, .longLow] : List Instr), s.cfg.lookup i.byte = none → s.cfg.nPort ≤ s.sel.port →
      exec i s = .fault .noSuchPin) ∧
    (∀ i ∈ ([.shortHigh, .longHigh] : List Instr), s.sel.port < s.cfg.nPort → s.tmr ≠ .idle →
      exec i s = .fault .timerBusy) ∧
    (∀ i ∈ ([.shortLow, .longLow] : List Instr), s.cfg.lookup i.byte = none → s.sel.port < s.cfg.nPort →
      s.tmr ≠ .idle → exec i s = .fault .timerBusy) ∧
    (∀ i ∈ ([.shortLow, .longLow] : List Instr), (s.cfg.lookup i.byte).isSome → exec i s = .refused .absentCommand) ∧
    (∀ i ∈ digitCommands ++ letterCommands.map Prod.snd, s.cfg.lookup i.byte = none →
      exec i s = .refused .absentCommand) ∧
    (∀ op, classify s.cfg op ≠ .unknown → exec (.unk op) s = .refused .absentCommand)

/-- R21: a pin write takes effect at its pin and at no other, and touches nothing else. -/
def Obligations.PinWriteChangesOnePin : Prop :=
  ∀ (s : State) (p : PinRef) (l : Level), p.port < s.cfg.nPort →
    ∃ t, perform s (.pinSet p l) = .next t ∧ t.level p = some l ∧ (∀ q, q ≠ p → t.level q = s.level q) ∧
      { t with pinlvl := s.pinlvl } = s

/-- S6 of 95_test_vectors.md: `H` twice leaves the pin high after each, writes it twice and echoes twice. -/
def Obligations.HTwiceIsIdempotentOnPins : Prop :=
  ∀ s : State, s.sel.port < s.cfg.nPort →
    ∃ t u, exec .high s = .next t ∧ exec .high t = .next u ∧
      t.level s.sel = some .high ∧ u.level s.sel = some .high ∧ u.pinlvl = t.pinlvl ∧ u.out = t.out ∧
      (s.txReady = true → u.out = [.rxTake 0x48, .pinSet s.sel .high, .txByte 0x48, .poll])

/-! ### One step -/

/-- R45: between commands, with a byte pending and no reset, a step is `exec` of the decoded command, followed by the
environment's move (log 6). -/
def Obligations.StepRunsDecodedCommand : Prop :=
  ∀ (s : State) (b : Byte) (rest : List Byte),
    s.cfg.wf → s.rst = false → s.phase = .idle → s.pending = b :: rest →
      step s = andThen (exec (decodeByte s.cfg b) s) (fun t => .next t.envStep)

/-- R44: between commands with nothing pending the dispatcher emits `[Poll]` and changes no state, ready or not. -/
def Obligations.IdleIterationOnlyPolls : Prop :=
  ∀ s : State, s.cfg.wf → s.rst = false → s.phase = .idle → s.pending = [] →
    step s = .next (State.envStep { s with trace := .ran [.poll] :: s.trace })

/-- R48: inside a pulse, until the timer is done, the dispatcher changes no state and emits no event, whatever is pending. -/
def Obligations.HoldDoesNothing : Prop :=
  ∀ s : State, s.cfg.wf → s.rst = false → s.phase = .wait → s.tmr ≠ .expired →
    step s = .next (State.envStep { s with trace := .ran [] :: s.trace })

/-- R62: the completing transition drives the second level of the command in CUR, attempts its echo with the readiness of that
moment, and ends the pulse. (The spec's own decisions D4, D17.) -/
def Obligations.CompletionDrivesSecondLevel : Prop :=
  ∀ s : State, s.cfg.wf → s.rst = false → s.phase = .wait → s.tmr = .expired → s.sel.port < s.cfg.nPort →
    s.cur ∈ ([0x74, 0x75, 0x54, 0x55] : List Byte) → s.cfg.lookup s.cur = none →
      ∃ second, second = (if s.cur = 0x74 ∨ s.cur = 0x75 then Level.high else Level.low) ∧
        step s = .next (State.envStep
          { s with
            phase := .idle, tmr := .idle, pinlvl := s.pinlvl.write s.sel.key second
            trace := .ran ([.tmrDone, .pinSet s.sel second] ++ (if s.txReady then [.txByte s.cur] else []) ++ [.poll]) ::
              s.trace })

/-- R80 and R81, the spec's own decisions D3 and D16: a cycle with `rst` = 1 resets the cells and the timer in either phase,
takes no byte and writes no pin. That the transition itself leaves the pending bytes and the pins' levels is log 22; the
environment's move after it may lose any of the bytes (log 23). -/
def Obligations.ResetCycleOverridesEverything : Prop :=
  ∀ s : State, s.cfg.wf → s.rst = true →
    step s = .next (State.envStep
      { s with
        sel := { port := 0, bit := 0 }, phase := .idle, cur := 0x00, tmr := .idle, trace := .reset :: s.trace })

/-- R18: the reset state, in every configuration. (The selection is the source's; CUR, PHASE, TMR and the strobes are the spec's
own D3 and D16.) -/
def Obligations.ResetState : Prop :=
  ∀ c : Config,
    (State.resetOf c).sel = { port := 0, bit := 0 } ∧ (State.resetOf c).phase = .idle ∧ (State.resetOf c).cur = 0x00 ∧
    (State.resetOf c).tmr = .idle ∧ (∀ p, (State.resetOf c).level p = none) ∧ (State.resetOf c).out = [] ∧
    (State.resetOf c).cfg = c

/-- R6 and R66: the one refusal a step has is that of an ill-formed configuration, by the name of the clause that fails; such a
configuration is always refused. -/
def Obligations.OnlyIllFormedConfigurationsAreRefused : Prop :=
  (∀ (s : State) (d : ConfigDefect), s.cfg.defect? = some d → step s = .refused (.illFormedConfig d)) ∧
  (∀ (s : State) (r : Refusal), step s = .refused r → ∃ d, s.cfg.defect? = some d ∧ r = .illFormedConfig d)

/-! ### Invariants -/

/-- R13: the invariants hold after reset, in every well-formed configuration. -/
def Obligations.InvariantHoldsAfterReset : Prop := ∀ c : Config, c.wf → (State.resetOf c).Inv

/-- R13: every step keeps the invariants. -/
def Obligations.StepKeepsInvariant : Prop := ∀ s t : State, s.Inv → step s = .next t → t.Inv

/-- R66: in a state that meets the invariants a step never faults and is never refused. -/
def Obligations.StepNeverStops : Prop := ∀ s : State, s.Inv → ∃ t, step s = .next t

/-- R21, R76, R80: the level of every pin is that of the last write in the trace that names it, and none if there was none;
every step keeps this. -/
def Obligations.PinsFollowTheTrace : Prop :=
  ∀ s t : State, (∀ p, s.level p = tracedLevel p s.trace) → step s = .next t → ∀ p, t.level p = tracedLevel p t.trace

/-- R52 (g): the selection is the table's pin of the last selector byte taken since reset, or the default; every step keeps
this. -/
def Obligations.SelectionFollowsTheTrace : Prop :=
  ∀ s t : State, s.sel = tracedSelection s.cfg s.trace → step s = .next t → t.sel = tracedSelection t.cfg t.trace

/-- R52 (e): starts and completions of the timer alternate and nothing lies between a start and its completion; every step keeps
this. -/
def Obligations.TimerEventsAlternate : Prop :=
  ∀ s t : State, s.Inv → s.TimerLawful → step s = .next t → t.TimerLawful

/-- R52 (c): one `Poll` per completed iteration; every step keeps this. -/
def Obligations.OnePollPerIteration : Prop := ∀ s t : State, s.PollLawful → step s = .next t → t.PollLawful

/-- 95_test_vectors.md section 4, property 1: never more transmissions than bytes taken; every step keeps this. -/
def Obligations.TransmissionsNeverExceedBytesTaken : Prop :=
  ∀ s t : State, s.TransmitLawful → step s = .next t →
    t.TransmitLawful ∧ countSinceReset Event.isTransmit t.trace ≤ countSinceReset Event.isTake t.trace

/-- The laws of the trace hold after reset. -/
def Obligations.TraceLawsHoldAfterReset : Prop :=
  ∀ c : Config,
    (∀ p, (State.resetOf c).level p = tracedLevel p (State.resetOf c).trace) ∧
    (State.resetOf c).sel = tracedSelection c (State.resetOf c).trace ∧ (State.resetOf c).TimerLawful ∧
    (State.resetOf c).PollLawful ∧ (State.resetOf c).TransmitLawful

/-! ### Laws of one cycle -/

/-- R52 (a), (b), (d): in one cycle a transmission comes after every pin write and is the only one; there is one only when the
transmit path was ready; every pin write names the selection at the start of the transition. -/
def Obligations.EventsOfOneCycle : Prop :=
  ∀ s t : State, step s = .next t →
    transmitLast t.out ∧ (∀ e ∈ t.out, e.isTransmit = true → s.txReady = true) ∧
    (∀ p l, Event.pinSet p l ∈ t.out → p = s.sel)

/-- R16, R72: the transmit strobes are never both 1, neither is 1 when `tx_ready` is 0, and `tmr_ms` is 100 or 1000. (The ports
are the spec's own D2, D10.) -/
def Obligations.OutputPortsObeyTheirRules : Prop :=
  ∀ s t : State, step s = .next t →
    ¬ ((txPort t.out).isSome = true ∧ txHelpPort t.out = true) ∧
    (s.txReady = false → txPort t.out = none ∧ txHelpPort t.out = false) ∧
    (∀ v, tmrPort t.out = some v → v = 100#10 ∨ v = 1000#10)

/-- R10, R13 (e), 95_test_vectors.md section 4 property 6: the selection changes only in a reset cycle or when a selector byte is
taken, and then to the table's pin. -/
def Obligations.OnlySelectorsChangeTheSelection : Prop :=
  ∀ s t : State, step s = .next t → t.sel ≠ s.sel →
    (s.rst = true ∧ t.sel = { port := 0, bit := 0 }) ∨
    (s.rst = false ∧ s.phase = .idle ∧ ∃ b rest, s.pending = b :: rest ∧ s.cfg.lookup b = some t.sel)

/-- R12: without a reset the phase goes to `WAIT` only by taking a pulse command, and to `IDLE` only by the timer's being done.
(The spec's own D4.) -/
def Obligations.OnlyPulsesChangeThePhase : Prop :=
  ∀ s t : State, step s = .next t → s.rst = false →
    (s.phase = .idle → t.phase = .wait →
      ∃ b rest ms, s.pending = b :: rest ∧ duration (classify s.cfg b) = some ms ∧ t.cur = b ∧
        Event.tmrStart ms ∈ t.out) ∧
    (s.phase = .wait → t.phase = .idle → s.tmr = .expired ∧ Event.tmrDone ∈ t.out) ∧
    (s.phase = .wait → s.tmr = .expired → t.phase = .idle)

/-- R5, R22, R31: no step changes the configuration. -/
def Obligations.ConfigurationNeverChanges : Prop := ∀ s t : State, step s = .next t → t.cfg = s.cfg

/-- R24, R45, R48, R75, R80: only the oldest pending byte is ever taken, only between commands, a reset cycle takes none, and what is
pending afterwards is the bytes not taken, without those the environment's move loses, with the new arrivals behind them. That
losses and arrivals come in one move after each transition is the model's (log 6); that any byte pending may be lost or held,
inside a pulse and in a reset cycle too, is the model's way to leave that open (log 22, log 23). -/
def Obligations.BytesAreTakenInOrder : Prop :=
  ∀ s t : State, step s = .next t →
    (s.rst = false → s.phase = .idle → ∀ b rest, s.pending = b :: rest →
      Event.rxTake b ∈ t.out ∧ t.pending = survivors s.nextMove.lose rest ++ s.nextMove.arrive) ∧
    (s.rst = true ∨ s.phase = .wait ∨ s.pending = [] →
      (∀ b, Event.rxTake b ∉ t.out) ∧ t.pending = survivors s.nextMove.lose s.pending ++ s.nextMove.arrive)

/-- R73: without a reset the timer leaves `Idle` only by a start, `Running` only by firing, `Expired` only by the completing
transition, which consumes it. (The spec's own D10.) -/
def Obligations.TimerMovesAsItsRuleSays : Prop :=
  ∀ s t : State, s.Inv → step s = .next t → s.rst = false →
    (s.tmr = .idle → t.tmr ≠ .idle →
      ∃ ms, Event.tmrStart ms ∈ t.out ∧ t.tmr = if s.nextMove.fire then .expired else .running ms) ∧
    (∀ ms, s.tmr = .running ms → t.tmr = if s.nextMove.fire then .expired else .running ms) ∧
    (s.tmr = .expired → t.tmr = .idle ∧ Event.tmrDone ∈ t.out)

/-! ### What does not matter, and what cannot be learnt -/

/-- R49: inside a pulse neither what is pending nor the transmit readiness affects the dispatcher's cells, the pins or the timer;
only the echo of a completion depends on the readiness. -/
def Obligations.PulseIgnoresTheTransport : Prop :=
  ∀ (s t : State) (q : List Byte) (r : Bool), s.phase = .wait → s.rst = false → step s = .next t →
    ∃ u, step { s with pending := q, txReady := r } = .next u ∧
      u.sel = t.sel ∧ u.cur = t.cur ∧ u.phase = t.phase ∧ u.pinlvl = t.pinlvl ∧ u.tmr = t.tmr ∧
      u.out.filter (fun e => !e.isTransmit) = t.out.filter (fun e => !e.isTransmit)

/-- R46, R68: whether the transmit path is ready changes nothing but the transmissions of the cycle, and when it is not there are
none. -/
def Obligations.NotReadyOnlyDropsTheTransmission : Prop :=
  ∀ (s t : State) (r : Bool), step s = .next t →
    ∃ u, step { s with txReady := r } = .next u ∧ { u with trace := t.trace } = t ∧
      u.out.filter (fun e => !e.isTransmit) = t.out.filter (fun e => !e.isTransmit) ∧
      (r = false → ∀ e ∈ u.out, e.isTransmit = false)

/-- R15, R89: two states that differ only in the selection, the pins and their record in the trace go on transmitting the same
bytes: the host learns nothing of either. -/
def Obligations.SelectionAndPinsCannotBeRead : Prop :=
  ∀ s u t : State, s.Inv → u.Inv → SameToHost s u → step s = .next t → ∃ v, step u = .next v ∧ SameToHost t v

/-! ### Runs -/

/-- R49, R57, R62: a pulse whose timer fires at the environment's `n + 1`-th move, with no reset, holds for `n + 1` steps and then
completes with the second level on the same pin. -/
def Obligations.PulseRunsToCompletion : Prop :=
  ∀ (n ms : Nat) (r : Bool) (l : Level) (rest : List EnvMove) (s : State),
    s.Inv → s.phase = .wait → s.tmr = .running ms → s.rst = false →
    secondLevel (classify s.cfg s.cur) = some l →
    s.env = List.replicate n (quietMove r false) ++ quietMove r true :: rest →
      ∃ t, core.run (n + 2) s = .next t ∧ t.phase = .idle ∧ t.sel = s.sel ∧ t.level s.sel = some l ∧
        t.trace = .ran ([.tmrDone, .pinSet s.sel l] ++ (if r then [.txByte s.cur] else []) ++ [.poll]) ::
          (List.replicate (n + 1) (.ran []) ++ s.trace)

/-- R52 (f), (g): with the transmit path always ready, a stream without `'?'` is answered byte by byte, each byte by itself and
each UNKNOWN one by 0x3F, and leaves the selection of its last selector. -/
def Obligations.ReadyStreamIsEchoedByteByByte : Prop :=
  ∀ (bytes : List Byte) (rest : List EnvMove) (s : State),
    s.Inv → s.phase = .idle → s.rst = false → s.txReady = true → s.pending = bytes →
    (∀ b ∈ bytes, b ≠ 0x3F) →
    s.env = List.replicate (2 * bytes.length) (quietMove true true) ++ rest →
      ∃ k t, k ≤ 2 * bytes.length ∧ core.run k s = .next t ∧ t.pending = [] ∧ t.phase = .idle ∧
        transmitted t.trace = transmitted s.trace ++ bytes.map (echoOf s.cfg) ∧
        t.sel = bytes.foldl (fun p b => (s.cfg.lookup b).getD p) s.sel

/-! ### What the environment owes, and what it does not -/

/-- R75 (a), D24: what a move loses leaves the other bytes in their order and repeats none; and any of them can be lost, or none
(R17 (c), R85). That a loss is possible in every move is the model's (log 23). -/
def Obligations.LossesKeepOrder : Prop :=
  (∀ (lost : List Bool) (q : List Byte), (survivors lost q).Sublist q) ∧
  (∀ q kept : List Byte, kept.Sublist q → ∃ lost, survivors lost q = kept)

/-- R74 (a), D23: the moves left to free values take the fire step again and again, and no firing that does so is left out. -/
def Obligations.FreeFiringIsExactlyTheFairOne : Prop :=
  (∀ gap n, ∃ m, n ≤ m ∧ countdown gap m = 0) ∧
  (∀ f : Nat → Bool, (∀ n, ∃ m, n ≤ m ∧ f m = true) → ∃ gap, ∀ n, countdown gap n = 0 ↔ f n = true)

/-- R74 (a): the fire step is weakly fair from every state that meets the invariants, whatever the schedule. (That a model states
liveness so is the spec's own D23; how the model brings it about is log 17.) -/
def Obligations.FireStepIsWeaklyFair : Prop := ∀ s : State, s.Inv → s.FireEnabled → s.FireIsFair

/-- R49, R62, R74 (a), R81: every pulse ends. From every state that meets the invariants inside a pulse, whatever the schedule, some
holds follow and then either a reset cycle, or the completion, with the second level on the same pin. (The split over transitions
is the spec's own D4, the reset its own D16; that the timer fires at all is log 17.) -/
def Obligations.EveryPulseEnds : Prop :=
  ∀ s : State, s.Inv → s.phase = .wait →
    ∃ k t last, core.run (k + 1) s = .next t ∧ t.phase = .idle ∧
      t.trace = last :: (List.replicate k (.ran []) ++ s.trace) ∧
      ((last = .reset ∧ t.sel = { port := 0, bit := 0 } ∧ t.pinlvl = s.pinlvl) ∨
       ∃ (l : Level) (r : Bool), secondLevel (classify s.cfg s.cur) = some l ∧ t.sel = s.sel ∧ t.level s.sel = some l ∧
        last = .ran ([.tmrDone, .pinSet s.sel l] ++ (if r then [.txByte s.cur] else []) ++ [.poll]))
end

