-- ==== Sys2Proof/Laws/Decode.lean ====
section
/-! SUPPORT. The table as a list of entries, the clauses of a well-formed configuration one by one, and the selector bytes. -/

namespace Sys2Proof

/-- The clauses `Config.wf` checks. -/
theorem Config.wf_iff (c : Config) :
    c.wf ↔ c.nLetter ≤ 26 ∧ c.nPort ≠ 0 ∧ c.pinTable.map Prod.fst = Config.alphabet c.nLetter ∧
      (∀ e ∈ c.pinTable, e.2.port < c.nPort) ∧ (∀ b ∈ c.helpText, b.toNat < 0x80) := by
  unfold Config.wf Config.defect?
  constructor
  · intro h
    split at h; · cases h
    split at h; · cases h
    split at h; · cases h
    split at h; · cases h
    split at h; · cases h
    rename_i hn hp ht hr ha
    refine ⟨by omega, hp, not_not.1 ht, fun e he => ?_, fun b hb => ?_⟩
    · by_contra hc
      exact hr (List.any_eq_true.2 ⟨e, he, by simpa using hc⟩)
    · by_contra hc
      exact ha (List.any_eq_true.2 ⟨b, hb, by simpa using hc⟩)
  · rintro ⟨hn, hp, ht, hr, ha⟩
    rw [if_neg (by omega), if_neg hp, if_neg (not_not.2 ht), if_neg, if_neg]
    · simpa using ha
    · simpa using hr

/-- The table is defined on its entries' bytes. -/
theorem Config.lookup_isSome (c : Config) (b : Byte) : (c.lookup b).isSome = true ↔ b ∈ c.pinTable.map Prod.fst := by
  unfold Config.lookup
  induction c.pinTable with
  | nil => simp
  | cons e l ih =>
    obtain ⟨k, v⟩ := e
    by_cases h : b = k
    · simp [h]
    · have hk : (b == k) = false := by simpa using h
      simp [List.lookup, hk, h, ← ih]

/-- What the table gives for a byte is one of its entries. -/
theorem Config.mem_of_lookup {c : Config} {b : Byte} {p : PinRef} (h : c.lookup b = some p) : (b, p) ∈ c.pinTable := by
  unfold Config.lookup at h
  induction hl : c.pinTable generalizing c with
  | nil => simp [hl] at h
  | cons e l ih =>
    obtain ⟨k, v⟩ := e
    rw [hl] at h
    by_cases hk : b = k
    · subst hk
      simp only [List.lookup, BEq.rfl, Option.some.injEq] at h
      simp [h]
    · have hb : (b == k) = false := by simpa using hk
      simp only [List.lookup, hb] at h
      exact List.mem_cons_of_mem _ (ih (c := { c with pinTable := l }) h rfl)

/-- A selector's pin is on a port that exists. -/
theorem Config.lookup_port_lt {c : Config} (h : c.wf) {b : Byte} {p : PinRef} (hb : c.lookup b = some p) :
    p.port < c.nPort :=
  (c.wf_iff.1 h).2.2.2.1 _ (Config.mem_of_lookup hb)

/-- A byte outside the table goes through the seven tests of R36. -/
theorem classify_of_lookup_none {c : Config} {b : Byte} (h : c.lookup b = none) :
    classify c b =
      if b = 0x48 then .setHigh
      else if b = 0x4C then .setLow
      else if b = 0x74 then .pulseLowThenHigh Config.tShortMs
      else if b = 0x54 then .pulseHighThenLow Config.tShortMs
      else if b = 0x75 then .pulseLowThenHigh Config.tLongMs
      else if b = 0x55 then .pulseHighThenLow Config.tLongMs
      else if b = 0x3F then .help
      else .unknown := by
  rw [classify, h]

/-- A byte in the table is a selector, whatever else it could be (R37). -/
theorem classify_of_lookup_some {c : Config} {b : Byte} {p : PinRef} (h : c.lookup b = some p) :
    classify c b = .selectPin p := by
  rw [classify, h]

/-- The selector command of a byte has that byte. -/
theorem byte_of_selectorOf {b : Byte} {i : Instr} (h : selectorOf b = some i) : i.byte = b := by
  have all : ∀ b : Byte, ∀ i ∈ selectorOf b, i.byte = b := by decide +kernel
  exact all b i h

end Sys2Proof
end

