-- ==== Sys2Proof/Laws/Memory.lean ====
section
/-! SUPPORT. Pin space: the canonical form is kept, a write is read back, other pins are left alone, and an address is one pin. -/

namespace Sys2Proof.Machine

/-- An address of pin space is the address of one pin (R21). -/
theorem key_injective {p q : PinRef} (h : p.key = q.key) : p = q := by
  obtain ⟨pp, pb⟩ := p
  obtain ⟨qp, qb⟩ := q
  simp only [PinRef.key] at h
  have hp : pp = qp := by omega
  have hb : pb = qb := Fin.ext (by omega)
  rw [hp, hb]

/-- A pin's address lies inside pin space exactly when its port exists. -/
theorem key_lt_iff (p : PinRef) (n : Nat) : p.key < 8 * n ↔ p.port < n := by
  simp only [PinRef.key]
  omega

theorem read_write_same (m : Memory) (a : Nat) (l : Level) : (m.write a l).read a = some l := by
  induction m with
  | nil => simp [Memory.write, Memory.read]
  | cons e m ih =>
    simp only [Memory.write]
    split
    · simp [Memory.read]
    · split
      · simp [Memory.read]
      · simp [Memory.read, *]

theorem read_write_other (m : Memory) {a b : Nat} (l : Level) (h : b ≠ a) : (m.write a l).read b = m.read b := by
  induction m with
  | nil => simp [Memory.write, Memory.read, h]
  | cons e m ih =>
    simp only [Memory.write]
    split
    · simp [Memory.read, h]
    · split
      · rename_i ha
        simp [Memory.read, h, ← ha]
      · simp [Memory.read, ih]

/-- The addresses a write leaves listed. -/
theorem mem_write {m : Memory} {a : Nat} {l : Level} {e : Nat × Level} (h : e ∈ m.write a l) : e = (a, l) ∨ e ∈ m := by
  induction m with
  | nil => exact .inl (by simpa [Memory.write] using h)
  | cons x m ih =>
    simp only [Memory.write] at h
    split at h
    · simpa using h
    · split at h
      · rcases List.mem_cons.1 h with h | h
        · exact .inl h
        · exact .inr (List.mem_cons_of_mem _ h)
      · rcases List.mem_cons.1 h with h | h
        · exact .inr (by simp [h])
        · exact (ih h).imp_right (List.mem_cons_of_mem _)

/-- A write keeps the canonical form. -/
theorem write_wf {m : Memory} (h : m.wf) (a : Nat) (l : Level) : (m.write a l).wf := by
  induction m with
  | nil => simp [Memory.write, Memory.wf]
  | cons x m ih =>
    obtain ⟨k, v⟩ := x
    have hx : (∀ b ∈ m.map Prod.fst, k < b) ∧ (m.map Prod.fst).Pairwise (· < ·) := List.pairwise_cons.1 h
    simp only [Memory.write]
    split
    · rename_i hk
      refine List.pairwise_cons.2 ⟨fun b hb => ?_, h⟩
      rcases List.mem_cons.1 hb with rfl | hb
      · exact hk
      · exact Nat.lt_trans hk (hx.1 b hb)
    · split
      · rename_i hk
        subst hk
        exact List.pairwise_cons.2 hx
      · refine List.pairwise_cons.2 ⟨fun b hb => ?_, ih hx.2⟩
        obtain ⟨e, he, rfl⟩ := List.mem_map.1 hb
        rcases mem_write he with rfl | he
        · simp only
          omega
        · exact hx.1 _ (List.mem_map_of_mem he)

/-- Pin space right after power-up has the canonical form. -/
theorem reset_pinlvl_wf (c : Config) : (State.resetOf c).pinlvl.wf := List.Pairwise.nil

end Sys2Proof.Machine
end

