-- ==== Sys2Proof/Laws/State.lean ====
section
/-! SUPPORT. What each named update of the state does to each field. -/

namespace Sys2Proof.Machine

/-! `State.setSel` -/

@[simp] theorem State.setSel_cfg (s : State) (p : PinRef) : (s.setSel p).cfg = s.cfg := rfl
@[simp] theorem State.setSel_sel (s : State) (p : PinRef) : (s.setSel p).sel = p := rfl
@[simp] theorem State.setSel_cur (s : State) (p : PinRef) : (s.setSel p).cur = s.cur := rfl
@[simp] theorem State.setSel_phase (s : State) (p : PinRef) : (s.setSel p).phase = s.phase := rfl
@[simp] theorem State.setSel_pinlvl (s : State) (p : PinRef) : (s.setSel p).pinlvl = s.pinlvl := rfl
@[simp] theorem State.setSel_tmr (s : State) (p : PinRef) : (s.setSel p).tmr = s.tmr := rfl
@[simp] theorem State.setSel_pending (s : State) (p : PinRef) : (s.setSel p).pending = s.pending := rfl
@[simp] theorem State.setSel_txReady (s : State) (p : PinRef) : (s.setSel p).txReady = s.txReady := rfl
@[simp] theorem State.setSel_rst (s : State) (p : PinRef) : (s.setSel p).rst = s.rst := rfl
@[simp] theorem State.setSel_trace (s : State) (p : PinRef) : (s.setSel p).trace = s.trace := rfl
@[simp] theorem State.setSel_env (s : State) (p : PinRef) : (s.setSel p).env = s.env := rfl
@[simp] theorem State.setSel_draws (s : State) (p : PinRef) : (s.setSel p).draws = s.draws := rfl

/-! `State.beginWait` -/

@[simp] theorem State.beginWait_cfg (s : State) (b : Byte) : (s.beginWait b).cfg = s.cfg := rfl
@[simp] theorem State.beginWait_sel (s : State) (b : Byte) : (s.beginWait b).sel = s.sel := rfl
@[simp] theorem State.beginWait_cur (s : State) (b : Byte) : (s.beginWait b).cur = b := rfl
@[simp] theorem State.beginWait_phase (s : State) (b : Byte) : (s.beginWait b).phase = .wait := rfl
@[simp] theorem State.beginWait_pinlvl (s : State) (b : Byte) : (s.beginWait b).pinlvl = s.pinlvl := rfl
@[simp] theorem State.beginWait_tmr (s : State) (b : Byte) : (s.beginWait b).tmr = s.tmr := rfl
@[simp] theorem State.beginWait_pending (s : State) (b : Byte) : (s.beginWait b).pending = s.pending := rfl
@[simp] theorem State.beginWait_txReady (s : State) (b : Byte) : (s.beginWait b).txReady = s.txReady := rfl
@[simp] theorem State.beginWait_rst (s : State) (b : Byte) : (s.beginWait b).rst = s.rst := rfl
@[simp] theorem State.beginWait_trace (s : State) (b : Byte) : (s.beginWait b).trace = s.trace := rfl
@[simp] theorem State.beginWait_env (s : State) (b : Byte) : (s.beginWait b).env = s.env := rfl
@[simp] theorem State.beginWait_draws (s : State) (b : Byte) : (s.beginWait b).draws = s.draws := rfl

/-! `State.endWait` -/

@[simp] theorem State.endWait_cfg (s : State) : (s.endWait).cfg = s.cfg := rfl
@[simp] theorem State.endWait_sel (s : State) : (s.endWait).sel = s.sel := rfl
@[simp] theorem State.endWait_cur (s : State) : (s.endWait).cur = s.cur := rfl
@[simp] theorem State.endWait_phase (s : State) : (s.endWait).phase = .idle := rfl
@[simp] theorem State.endWait_pinlvl (s : State) : (s.endWait).pinlvl = s.pinlvl := rfl
@[simp] theorem State.endWait_tmr (s : State) : (s.endWait).tmr = s.tmr := rfl
@[simp] theorem State.endWait_pending (s : State) : (s.endWait).pending = s.pending := rfl
@[simp] theorem State.endWait_txReady (s : State) : (s.endWait).txReady = s.txReady := rfl
@[simp] theorem State.endWait_rst (s : State) : (s.endWait).rst = s.rst := rfl
@[simp] theorem State.endWait_trace (s : State) : (s.endWait).trace = s.trace := rfl
@[simp] theorem State.endWait_env (s : State) : (s.endWait).env = s.env := rfl
@[simp] theorem State.endWait_draws (s : State) : (s.endWait).draws = s.draws := rfl

/-! `State.drive` -/

@[simp] theorem State.drive_cfg (s : State) (p : PinRef) (l : Level) : (s.drive p l).cfg = s.cfg := rfl
@[simp] theorem State.drive_sel (s : State) (p : PinRef) (l : Level) : (s.drive p l).sel = s.sel := rfl
@[simp] theorem State.drive_cur (s : State) (p : PinRef) (l : Level) : (s.drive p l).cur = s.cur := rfl
@[simp] theorem State.drive_phase (s : State) (p : PinRef) (l : Level) : (s.drive p l).phase = s.phase := rfl
@[simp] theorem State.drive_pinlvl (s : State) (p : PinRef) (l : Level) : (s.drive p l).pinlvl = s.pinlvl.write p.key l := rfl
@[simp] theorem State.drive_tmr (s : State) (p : PinRef) (l : Level) : (s.drive p l).tmr = s.tmr := rfl
@[simp] theorem State.drive_pending (s : State) (p : PinRef) (l : Level) : (s.drive p l).pending = s.pending := rfl
@[simp] theorem State.drive_txReady (s : State) (p : PinRef) (l : Level) : (s.drive p l).txReady = s.txReady := rfl
@[simp] theorem State.drive_rst (s : State) (p : PinRef) (l : Level) : (s.drive p l).rst = s.rst := rfl
@[simp] theorem State.drive_trace (s : State) (p : PinRef) (l : Level) : (s.drive p l).trace = s.trace := rfl
@[simp] theorem State.drive_env (s : State) (p : PinRef) (l : Level) : (s.drive p l).env = s.env := rfl
@[simp] theorem State.drive_draws (s : State) (p : PinRef) (l : Level) : (s.drive p l).draws = s.draws := rfl

/-! `State.setTimer` -/

@[simp] theorem State.setTimer_cfg (s : State) (t : Timer) : (s.setTimer t).cfg = s.cfg := rfl
@[simp] theorem State.setTimer_sel (s : State) (t : Timer) : (s.setTimer t).sel = s.sel := rfl
@[simp] theorem State.setTimer_cur (s : State) (t : Timer) : (s.setTimer t).cur = s.cur := rfl
@[simp] theorem State.setTimer_phase (s : State) (t : Timer) : (s.setTimer t).phase = s.phase := rfl
@[simp] theorem State.setTimer_pinlvl (s : State) (t : Timer) : (s.setTimer t).pinlvl = s.pinlvl := rfl
@[simp] theorem State.setTimer_tmr (s : State) (t : Timer) : (s.setTimer t).tmr = t := rfl
@[simp] theorem State.setTimer_pending (s : State) (t : Timer) : (s.setTimer t).pending = s.pending := rfl
@[simp] theorem State.setTimer_txReady (s : State) (t : Timer) : (s.setTimer t).txReady = s.txReady := rfl
@[simp] theorem State.setTimer_rst (s : State) (t : Timer) : (s.setTimer t).rst = s.rst := rfl
@[simp] theorem State.setTimer_trace (s : State) (t : Timer) : (s.setTimer t).trace = s.trace := rfl
@[simp] theorem State.setTimer_env (s : State) (t : Timer) : (s.setTimer t).env = s.env := rfl
@[simp] theorem State.setTimer_draws (s : State) (t : Timer) : (s.setTimer t).draws = s.draws := rfl

/-! `State.dropByte` -/

@[simp] theorem State.dropByte_cfg (s : State) : (s.dropByte).cfg = s.cfg := rfl
@[simp] theorem State.dropByte_sel (s : State) : (s.dropByte).sel = s.sel := rfl
@[simp] theorem State.dropByte_cur (s : State) : (s.dropByte).cur = s.cur := rfl
@[simp] theorem State.dropByte_phase (s : State) : (s.dropByte).phase = s.phase := rfl
@[simp] theorem State.dropByte_pinlvl (s : State) : (s.dropByte).pinlvl = s.pinlvl := rfl
@[simp] theorem State.dropByte_tmr (s : State) : (s.dropByte).tmr = s.tmr := rfl
@[simp] theorem State.dropByte_pending (s : State) : (s.dropByte).pending = s.pending.tail := rfl
@[simp] theorem State.dropByte_txReady (s : State) : (s.dropByte).txReady = s.txReady := rfl
@[simp] theorem State.dropByte_rst (s : State) : (s.dropByte).rst = s.rst := rfl
@[simp] theorem State.dropByte_trace (s : State) : (s.dropByte).trace = s.trace := rfl
@[simp] theorem State.dropByte_env (s : State) : (s.dropByte).env = s.env := rfl
@[simp] theorem State.dropByte_draws (s : State) : (s.dropByte).draws = s.draws := rfl

/-! `State.record` -/

@[simp] theorem State.record_cfg (s : State) (c : Cycle) : (s.record c).cfg = s.cfg := rfl
@[simp] theorem State.record_sel (s : State) (c : Cycle) : (s.record c).sel = s.sel := rfl
@[simp] theorem State.record_cur (s : State) (c : Cycle) : (s.record c).cur = s.cur := rfl
@[simp] theorem State.record_phase (s : State) (c : Cycle) : (s.record c).phase = s.phase := rfl
@[simp] theorem State.record_pinlvl (s : State) (c : Cycle) : (s.record c).pinlvl = s.pinlvl := rfl
@[simp] theorem State.record_tmr (s : State) (c : Cycle) : (s.record c).tmr = s.tmr := rfl
@[simp] theorem State.record_pending (s : State) (c : Cycle) : (s.record c).pending = s.pending := rfl
@[simp] theorem State.record_txReady (s : State) (c : Cycle) : (s.record c).txReady = s.txReady := rfl
@[simp] theorem State.record_rst (s : State) (c : Cycle) : (s.record c).rst = s.rst := rfl
@[simp] theorem State.record_trace (s : State) (c : Cycle) : (s.record c).trace = c :: s.trace := rfl
@[simp] theorem State.record_env (s : State) (c : Cycle) : (s.record c).env = s.env := rfl
@[simp] theorem State.record_draws (s : State) (c : Cycle) : (s.record c).draws = s.draws := rfl

/-! `State.initialise` -/

@[simp] theorem State.initialise_cfg (s : State) : (s.initialise).cfg = s.cfg := rfl
@[simp] theorem State.initialise_sel (s : State) : (s.initialise).sel = Config.selReset := rfl
@[simp] theorem State.initialise_cur (s : State) : (s.initialise).cur = 0x00 := rfl
@[simp] theorem State.initialise_phase (s : State) : (s.initialise).phase = .idle := rfl
@[simp] theorem State.initialise_pinlvl (s : State) : (s.initialise).pinlvl = s.pinlvl := rfl
@[simp] theorem State.initialise_tmr (s : State) : (s.initialise).tmr = .idle := rfl
@[simp] theorem State.initialise_pending (s : State) : (s.initialise).pending = s.pending := rfl
@[simp] theorem State.initialise_txReady (s : State) : (s.initialise).txReady = s.txReady := rfl
@[simp] theorem State.initialise_rst (s : State) : (s.initialise).rst = s.rst := rfl
@[simp] theorem State.initialise_trace (s : State) : (s.initialise).trace = .reset :: s.trace := rfl
@[simp] theorem State.initialise_env (s : State) : (s.initialise).env = s.env := rfl
@[simp] theorem State.initialise_draws (s : State) : (s.initialise).draws = s.draws := rfl

/-! `State.applyMove` -/

@[simp] theorem State.applyMove_cfg (s : State) (m : EnvMove) : (s.applyMove m).cfg = s.cfg := rfl
@[simp] theorem State.applyMove_sel (s : State) (m : EnvMove) : (s.applyMove m).sel = s.sel := rfl
@[simp] theorem State.applyMove_cur (s : State) (m : EnvMove) : (s.applyMove m).cur = s.cur := rfl
@[simp] theorem State.applyMove_phase (s : State) (m : EnvMove) : (s.applyMove m).phase = s.phase := rfl
@[simp] theorem State.applyMove_pinlvl (s : State) (m : EnvMove) : (s.applyMove m).pinlvl = s.pinlvl := rfl
@[simp] theorem State.applyMove_tmr (s : State) (m : EnvMove) : (s.applyMove m).tmr = if m.fire then s.tmr.fire else s.tmr := rfl
@[simp] theorem State.applyMove_pending (s : State) (m : EnvMove) : (s.applyMove m).pending = survivors m.lose s.pending ++ m.arrive := rfl
@[simp] theorem State.applyMove_txReady (s : State) (m : EnvMove) : (s.applyMove m).txReady = m.txReady := rfl
@[simp] theorem State.applyMove_rst (s : State) (m : EnvMove) : (s.applyMove m).rst = m.rst := rfl
@[simp] theorem State.applyMove_trace (s : State) (m : EnvMove) : (s.applyMove m).trace = s.trace := rfl
@[simp] theorem State.applyMove_env (s : State) (m : EnvMove) : (s.applyMove m).env = s.env.tail := rfl
@[simp] theorem State.applyMove_draws (s : State) (m : EnvMove) : (s.applyMove m).draws = s.draws + 1 := rfl

/-! `State.envStep` -/

@[simp] theorem State.envStep_cfg (s : State) : (s.envStep).cfg = s.cfg := rfl
@[simp] theorem State.envStep_sel (s : State) : (s.envStep).sel = s.sel := rfl
@[simp] theorem State.envStep_cur (s : State) : (s.envStep).cur = s.cur := rfl
@[simp] theorem State.envStep_phase (s : State) : (s.envStep).phase = s.phase := rfl
@[simp] theorem State.envStep_pinlvl (s : State) : (s.envStep).pinlvl = s.pinlvl := rfl
@[simp] theorem State.envStep_tmr (s : State) : (s.envStep).tmr = if s.nextMove.fire then s.tmr.fire else s.tmr := rfl
@[simp] theorem State.envStep_pending (s : State) : (s.envStep).pending = survivors s.nextMove.lose s.pending ++ s.nextMove.arrive := rfl
@[simp] theorem State.envStep_txReady (s : State) : (s.envStep).txReady = s.nextMove.txReady := rfl
@[simp] theorem State.envStep_rst (s : State) : (s.envStep).rst = s.nextMove.rst := rfl
@[simp] theorem State.envStep_trace (s : State) : (s.envStep).trace = s.trace := rfl
@[simp] theorem State.envStep_env (s : State) : (s.envStep).env = s.env.tail := rfl
@[simp] theorem State.envStep_draws (s : State) : (s.envStep).draws = s.draws + 1 := rfl

/-! `State.offer` -/

@[simp] theorem State.offer_cfg (s : State) (b : Byte) : (s.offer b).cfg = s.cfg := rfl
@[simp] theorem State.offer_sel (s : State) (b : Byte) : (s.offer b).sel = s.sel := rfl
@[simp] theorem State.offer_cur (s : State) (b : Byte) : (s.offer b).cur = s.cur := rfl
@[simp] theorem State.offer_phase (s : State) (b : Byte) : (s.offer b).phase = .idle := rfl
@[simp] theorem State.offer_pinlvl (s : State) (b : Byte) : (s.offer b).pinlvl = s.pinlvl := rfl
@[simp] theorem State.offer_tmr (s : State) (b : Byte) : (s.offer b).tmr = .idle := rfl
@[simp] theorem State.offer_pending (s : State) (b : Byte) : (s.offer b).pending = b :: s.pending := rfl
@[simp] theorem State.offer_txReady (s : State) (b : Byte) : (s.offer b).txReady = s.txReady := rfl
@[simp] theorem State.offer_rst (s : State) (b : Byte) : (s.offer b).rst = false := rfl
@[simp] theorem State.offer_trace (s : State) (b : Byte) : (s.offer b).trace = s.trace := rfl
@[simp] theorem State.offer_env (s : State) (b : Byte) : (s.offer b).env = s.env := rfl
@[simp] theorem State.offer_draws (s : State) (b : Byte) : (s.offer b).draws = s.draws := rfl

end Sys2Proof.Machine
end

