-- ==== Sys2Proof/Laws/Ops.lean ====
section
/-! SUPPORT. What the shared operations do: one lemma per operation that gives its next state, and the inversion of one that
answers. Later proofs cite these and do not unfold the operations. -/

namespace Sys2Proof.Machine

open Host

/-! ### Events -/

theorem andThen_eq_next {o : Outcome State Fault Refusal} {f : State → Outcome State Fault Refusal} {t : State}
    (h : andThen o f = .next t) : ∃ u, o = .next u ∧ f u = .next t := by
  cases o with
  | next u => exact ⟨u, rfl, h⟩
  | fault r => cases h
  | refused r => cases h

theorem performAll_append (s : State) (xs ys : List Event) :
    performAll s (xs ++ ys) = andThen (performAll s xs) fun t => performAll t ys := by
  induction xs generalizing s with
  | nil => rfl
  | cons e es ih =>
    simp only [List.cons_append, performAll]
    cases perform s e with
    | next t => exact ih t
    | fault r => rfl
    | refused r => rfl

/-- An echo attempt, and the attempt to send the text, leave the state as it is. -/
theorem performAll_echo (s : State) (e : Byte) (r : Bool) : performAll s (echo e r) = .next s := by
  cases r <;> rfl

theorem performAll_sendText (s : State) (text : List Byte) (r : Bool) : performAll s (sendText text r) = .next s := by
  cases r <;> rfl

/-- A pin of a port that exists is driven. -/
theorem perform_pinSet {s : State} {p : PinRef} (l : Level) (h : p.port < s.cfg.nPort) :
    perform s (.pinSet p l) = .next (s.drive p l) := if_pos h

/-- A start meets an idle timer. -/
theorem perform_tmrStart {s : State} (ms : Nat) (h : s.tmr = .idle) :
    perform s (.tmrStart ms) = .next (s.setTimer (.running ms)) := by
  simp only [perform, h]

/-! ### Transitions: the shared parts of the commands -/

theorem select_next {b : Byte} {s : State} {p : PinRef} (h : s.cfg.lookup b = some p) :
    select b s = .next (((s.setSel p).dropByte).record (.ran ([.rxTake b] ++ echo b s.txr ++ [.poll]))) := by
  simp only [select, State.tablePin, h, transition, performAll_append, performAll, perform, andThen, performAll_echo]

theorem setLevel_next {b : Byte} {l : Level} {s : State} (h : s.sel.port < s.cfg.nPort) :
    setLevel b l s =
      .next ((s.dropByte.drive s.sel l).record (.ran ([.rxTake b, .pinSet s.sel l] ++ echo b s.txr ++ [.poll]))) := by
  simp only [setLevel, State.pin, transition, performAll_append, performAll, perform, andThen, performAll_echo,
    State.dropByte_cfg, h, if_true]

theorem startPulse_next {b : Byte} {a : Level} {ms : Nat} {s : State} (h : s.sel.port < s.cfg.nPort)
    (ht : s.tmr = .idle) :
    startPulse b a ms s =
      .next (((((s.beginWait b).dropByte).drive s.sel a).setTimer (.running ms)).record
        (.ran [.rxTake b, .pinSet s.sel a, .tmrStart ms])) := by
  simp only [startPulse, State.pin, transition, performAll, perform, andThen,
    State.dropByte_cfg, State.beginWait_cfg, State.drive_tmr, State.dropByte_tmr, State.beginWait_tmr, h, ht, if_true]

theorem sendHelp_next (s : State) :
    execHelp s = .next (s.dropByte.record (.ran ([.rxTake 0x3F] ++ sendText s.cfg.helpText s.txr ++ [.poll]))) := by
  simp only [execHelp, transition, performAll_append, performAll, perform, andThen, performAll_sendText]

theorem unknown_next {op : Byte} {s : State} (h : classify s.cfg op = .unknown) :
    execUnk op s = .next (s.dropByte.record (.ran ([.rxTake op] ++ echo 0x3F s.txr ++ [.poll]))) := by
  simp only [execUnk, unknownEcho, h, if_true, transition, performAll_append, performAll, perform, andThen,
    performAll_echo]

/-! ### Transitions outside the commands -/

theorem idlePoll_next (s : State) : idlePoll s = .next (s.record (.ran [.poll])) := rfl

theorem hold_next (s : State) : hold s = .next (s.record (.ran [])) := rfl

theorem completePulse_next {s : State} {l : Level} (hl : secondLevel (classify s.cfg s.cur) = some l)
    (h : s.sel.port < s.cfg.nPort) :
    completePulse s =
      .next ((((s.endWait.setTimer .idle)).drive s.sel l).record
        (.ran ([.tmrDone, .pinSet s.sel l] ++ echo s.cur s.txr ++ [.poll]))) := by
  simp only [completePulse, hl, State.pin, transition, performAll_append, performAll, perform, andThen, performAll_echo,
    State.setTimer_cfg, State.endWait_cfg, h, if_true]

/-! ### Inversion: what an operation that answers a next state has done -/

theorem select_cases {b : Byte} {s t : State} (h : select b s = .next t) :
    ∃ p, s.cfg.lookup b = some p ∧
      t = ((s.setSel p).dropByte).record (.ran ([.rxTake b] ++ echo b s.txr ++ [.poll])) := by
  cases hp : s.cfg.lookup b with
  | none => simp [select, State.tablePin, hp] at h
  | some p => exact ⟨p, rfl, by rw [select_next hp] at h; exact (Outcome.next.inj h).symm⟩

theorem setLevel_cases {b : Byte} {l : Level} {s t : State} (h : setLevel b l s = .next t) :
    s.sel.port < s.cfg.nPort ∧
      t = (s.dropByte.drive s.sel l).record (.ran ([.rxTake b, .pinSet s.sel l] ++ echo b s.txr ++ [.poll])) := by
  by_cases hp : s.sel.port < s.cfg.nPort
  · exact ⟨hp, by rw [setLevel_next hp] at h; exact (Outcome.next.inj h).symm⟩
  · simp [setLevel, State.pin, transition, performAll, perform, andThen, hp] at h

theorem startPulse_cases {b : Byte} {a : Level} {ms : Nat} {s t : State} (h : startPulse b a ms s = .next t) :
    s.sel.port < s.cfg.nPort ∧ s.tmr = .idle ∧
      t = ((((s.beginWait b).dropByte).drive s.sel a).setTimer (.running ms)).record
        (.ran [.rxTake b, .pinSet s.sel a, .tmrStart ms]) := by
  by_cases hp : s.sel.port < s.cfg.nPort
  · cases ht : s.tmr with
    | idle => exact ⟨hp, rfl, by rw [startPulse_next hp ht] at h; exact (Outcome.next.inj h).symm⟩
    | running k => simp [startPulse, State.pin, transition, performAll, perform, andThen, hp, ht] at h
    | expired => simp [startPulse, State.pin, transition, performAll, perform, andThen, hp, ht] at h
  · simp [startPulse, State.pin, transition, performAll, perform, andThen, hp] at h

theorem unlessSelector_cases {b : Byte} {run : State → Outcome State Fault Refusal} {s t : State}
    (h : unlessSelector b run s = .next t) : s.cfg.lookup b = none ∧ run s = .next t := by
  cases hp : s.cfg.lookup b with
  | none => exact ⟨rfl, by simpa [unlessSelector, State.tablePin, hp] using h⟩
  | some p => simp [unlessSelector, State.tablePin, hp] at h

theorem unlessSelector_none {b : Byte} {run : State → Outcome State Fault Refusal} {s : State}
    (h : s.cfg.lookup b = none) : unlessSelector b run s = run s := by
  simp [unlessSelector, State.tablePin, h]

theorem execUnk_cases {op : Byte} {s t : State} (h : execUnk op s = .next t) :
    classify s.cfg op = .unknown ∧
      t = s.dropByte.record (.ran ([.rxTake op] ++ echo 0x3F s.txr ++ [.poll])) := by
  by_cases hc : classify s.cfg op = .unknown
  · exact ⟨hc, by rw [unknown_next hc] at h; exact (Outcome.next.inj h).symm⟩
  · simp [execUnk, hc] at h

theorem completePulse_cases {s t : State} (h : completePulse s = .next t) :
    ∃ l, secondLevel (classify s.cfg s.cur) = some l ∧ s.sel.port < s.cfg.nPort ∧
      t = (((s.endWait.setTimer .idle)).drive s.sel l).record
        (.ran ([.tmrDone, .pinSet s.sel l] ++ echo s.cur s.txr ++ [.poll])) := by
  cases hl : secondLevel (classify s.cfg s.cur) with
  | none => simp [completePulse, hl] at h
  | some l =>
    by_cases hp : s.sel.port < s.cfg.nPort
    · exact ⟨l, rfl, hp, by rw [completePulse_next hl hp] at h; exact (Outcome.next.inj h).symm⟩
    · simp [completePulse, hl, State.pin, transition, performAll, perform, andThen, hp] at h

/-! ### The poll cycle -/

theorem dispatch_cases {run : Byte → State → Outcome State Fault Refusal} {s t : State} (h : dispatch run s = .next t) :
    (s.phase = .idle ∧ s.pending = [] ∧ t = s.record (.ran [.poll])) ∨
    (s.phase = .idle ∧ ∃ b rest, s.pending = b :: rest ∧ run b s = .next t) ∨
    (s.phase = .wait ∧ s.tmr ≠ .expired ∧ t = s.record (.ran [])) ∨
    (s.phase = .wait ∧ s.tmr = .expired ∧ completePulse s = .next t) := by
  cases hp : s.phase with
  | idle =>
    cases hq : s.pending with
    | nil =>
      simp only [dispatch, hp, State.rx, hq, List.head?_nil] at h
      exact .inl ⟨rfl, rfl, (Outcome.next.inj h).symm⟩
    | cons b rest =>
      simp only [dispatch, hp, State.rx, hq, List.head?_cons] at h
      exact .inr (.inl ⟨rfl, b, rest, rfl, h⟩)
  | wait =>
    by_cases ht : s.tmr = .expired
    · simp only [dispatch, hp, State.done, ht, decide_true, if_true] at h
      exact .inr (.inr (.inr ⟨rfl, ht, h⟩))
    · simp [dispatch, hp, State.done, ht] at h
      exact .inr (.inr (.inl ⟨rfl, ht, (Outcome.next.inj h).symm⟩))

theorem cycle_cases {run : Byte → State → Outcome State Fault Refusal} {s t : State} (h : cycle run s = .next t) :
    s.cfg.wf ∧ ∃ u, t = u.envStep ∧
      ((s.rst = true ∧ u = s.initialise) ∨ (s.rst = false ∧ dispatch run s = .next u)) := by
  cases hd : s.cfg.defect? with
  | some d => simp [cycle, hd] at h
  | none =>
    simp only [cycle, hd] at h
    obtain ⟨u, hu, ht⟩ := andThen_eq_next h
    refine ⟨hd, u, (Outcome.next.inj ht).symm, ?_⟩
    cases hr : s.rst with
    | true =>
      simp only [clockEdge, hr, if_true] at hu
      exact .inl ⟨rfl, (Outcome.next.inj hu).symm⟩
    | false =>
      simp only [clockEdge, hr, Bool.false_eq_true, if_false] at hu
      exact .inr ⟨rfl, hu⟩

/-! ### The environment's move -/

@[simp] theorem survivors_of_none_lost (q : List Byte) : survivors [] q = q := by rw [survivors]

@[simp] theorem survivors_of_none_pending (ls : List Bool) : survivors ls [] = [] := by cases ls <;> rw [survivors]

@[simp] theorem survivors_cons_lost (ls : List Bool) (b : Byte) (q : List Byte) :
    survivors (true :: ls) (b :: q) = survivors ls q := by rw [survivors]

@[simp] theorem survivors_cons_held (ls : List Bool) (b : Byte) (q : List Byte) :
    survivors (false :: ls) (b :: q) = b :: survivors ls q := by rw [survivors]

theorem countdown_zero (gap : Nat → Nat) : countdown gap 0 = gap 0 := rfl

/-- After a fire step the count begins anew. -/
theorem countdown_after_fire {gap : Nat → Nat} {n : Nat} (h : countdown gap n = 0) :
    countdown gap (n + 1) = gap (n + 1) := by rw [countdown, h]

/-- Between fire steps it goes down by one. -/
theorem countdown_between {gap : Nat → Nat} {n k : Nat} (h : countdown gap n = k + 1) : countdown gap (n + 1) = k := by
  rw [countdown, h]

/-- The move is the head of the schedule while there is one. -/
theorem nextMove_of_env {s : State} {m : EnvMove} {ms : List EnvMove} (h : s.env = m :: ms) : s.nextMove = m := by
  rw [State.nextMove, h]

/-- With no schedule left the timer fires as the free values say. -/
theorem nextMove_fire_of_no_env {s : State} (h : s.env = []) : s.nextMove.fire = freeFire s.draws := by
  rw [State.nextMove, h]

end Sys2Proof.Machine
end

