-- ==== Sys2Proof/Laws/PerInstr.lean ====
section
/-! SUPPORT. Facts about commands as syntax, one lemma per constructor. -/

namespace Sys2Proof.Laws.OneByte

/-- R34: a command is one byte; and the byte of a selector command is that of its row in R53 or R54. -/
def Statement (i : Instr) : Prop :=
  encode i = [i.byte] ∧ (i ∈ digitCommands ∨ i ∈ letterCommands.map Prod.snd → selectorOf i.byte = some i)

theorem sel_0 : Statement .sel_0 := ⟨rfl, fun _ => rfl⟩

theorem sel_1 : Statement .sel_1 := ⟨rfl, fun _ => rfl⟩

theorem sel_2 : Statement .sel_2 := ⟨rfl, fun _ => rfl⟩

theorem sel_3 : Statement .sel_3 := ⟨rfl, fun _ => rfl⟩

theorem sel_4 : Statement .sel_4 := ⟨rfl, fun _ => rfl⟩

theorem sel_5 : Statement .sel_5 := ⟨rfl, fun _ => rfl⟩

theorem sel_6 : Statement .sel_6 := ⟨rfl, fun _ => rfl⟩

theorem sel_7 : Statement .sel_7 := ⟨rfl, fun _ => rfl⟩

theorem sel_8 : Statement .sel_8 := ⟨rfl, fun _ => rfl⟩

theorem sel_9 : Statement .sel_9 := ⟨rfl, fun _ => rfl⟩

theorem sel_a : Statement .sel_a := ⟨rfl, fun _ => rfl⟩

theorem sel_b : Statement .sel_b := ⟨rfl, fun _ => rfl⟩

theorem sel_c : Statement .sel_c := ⟨rfl, fun _ => rfl⟩

theorem sel_d : Statement .sel_d := ⟨rfl, fun _ => rfl⟩

theorem sel_e : Statement .sel_e := ⟨rfl, fun _ => rfl⟩

theorem sel_f : Statement .sel_f := ⟨rfl, fun _ => rfl⟩

theorem sel_g : Statement .sel_g := ⟨rfl, fun _ => rfl⟩

theorem sel_h : Statement .sel_h := ⟨rfl, fun _ => rfl⟩

theorem sel_i : Statement .sel_i := ⟨rfl, fun _ => rfl⟩

theorem sel_j : Statement .sel_j := ⟨rfl, fun _ => rfl⟩

theorem sel_k : Statement .sel_k := ⟨rfl, fun _ => rfl⟩

theorem sel_l : Statement .sel_l := ⟨rfl, fun _ => rfl⟩

theorem sel_m : Statement .sel_m := ⟨rfl, fun _ => rfl⟩

theorem sel_n : Statement .sel_n := ⟨rfl, fun _ => rfl⟩

theorem sel_o : Statement .sel_o := ⟨rfl, fun _ => rfl⟩

theorem sel_p : Statement .sel_p := ⟨rfl, fun _ => rfl⟩

theorem sel_q : Statement .sel_q := ⟨rfl, fun _ => rfl⟩

theorem sel_r : Statement .sel_r := ⟨rfl, fun _ => rfl⟩

theorem sel_s : Statement .sel_s := ⟨rfl, fun _ => rfl⟩

theorem sel_t : Statement .sel_t := ⟨rfl, fun _ => rfl⟩

theorem sel_u : Statement .sel_u := ⟨rfl, fun _ => rfl⟩

theorem sel_v : Statement .sel_v := ⟨rfl, fun _ => rfl⟩

theorem sel_w : Statement .sel_w := ⟨rfl, fun _ => rfl⟩

theorem sel_x : Statement .sel_x := ⟨rfl, fun _ => rfl⟩

theorem sel_y : Statement .sel_y := ⟨rfl, fun _ => rfl⟩

theorem sel_z : Statement .sel_z := ⟨rfl, fun _ => rfl⟩

theorem high : Statement .high := ⟨rfl, fun h => absurd h (by decide)⟩

theorem low : Statement .low := ⟨rfl, fun h => absurd h (by decide)⟩

theorem shortLow : Statement .shortLow := ⟨rfl, fun h => absurd h (by decide)⟩

theorem shortHigh : Statement .shortHigh := ⟨rfl, fun h => absurd h (by decide)⟩

theorem longLow : Statement .longLow := ⟨rfl, fun h => absurd h (by decide)⟩

theorem longHigh : Statement .longHigh := ⟨rfl, fun h => absurd h (by decide)⟩

theorem help : Statement .help := ⟨rfl, fun h => absurd h (by decide)⟩

theorem unk (op : Byte) : Statement (.unk op) := ⟨rfl, fun h => by simp [digitCommands, letterCommands] at h⟩

end Sys2Proof.Laws.OneByte
end

