-- ==== Sys2Proof/Laws/Step.lean ====
section
/-! SUPPORT. What a command and a step can do, said once: the inversion of `exec` and of `step`, and the commands as uses of the
shared operations. -/

namespace Sys2Proof.Machine

open Host

/-- The selector commands are selections at their own byte (R53, R54). -/
theorem exec_selector {i : Instr} (h : selectorOf i.byte = some i) (s : State) : exec i s = select i.byte s := by
  cases i with
  | sel_0 => rfl
  | sel_1 => rfl
  | sel_2 => rfl
  | sel_3 => rfl
  | sel_4 => rfl
  | sel_5 => rfl
  | sel_6 => rfl
  | sel_7 => rfl
  | sel_8 => rfl
  | sel_9 => rfl
  | sel_a => rfl
  | sel_b => rfl
  | sel_c => rfl
  | sel_d => rfl
  | sel_e => rfl
  | sel_f => rfl
  | sel_g => rfl
  | sel_h => rfl
  | sel_i => rfl
  | sel_j => rfl
  | sel_k => rfl
  | sel_l => rfl
  | sel_m => rfl
  | sel_n => rfl
  | sel_o => rfl
  | sel_p => rfl
  | sel_q => rfl
  | sel_r => rfl
  | sel_s => rfl
  | sel_t => rfl
  | sel_u => rfl
  | sel_v => rfl
  | sel_w => rfl
  | sel_x => rfl
  | sel_y => rfl
  | sel_z => rfl
  | high => exact absurd h (by decide)
  | low => exact absurd h (by decide)
  | shortLow => exact absurd h (by decide)
  | shortHigh => exact absurd h (by decide)
  | longLow => exact absurd h (by decide)
  | longHigh => exact absurd h (by decide)
  | help => exact absurd h (by decide)
  | unk op =>
    simp only [Instr.byte, selectorOf] at h
    split at h <;> simp at h

/-- Which shared operation a command is, in every state. -/
inductive ExecShape (i : Instr) : Prop where
  | selection (b : Byte) (h : ∀ s, exec i s = select b s)
  | level (b : Byte) (l : Level) (h : ∀ s, exec i s = setLevel b l s)
  | pulse (b : Byte) (a : Level) (ms : Nat) (h : ∀ s, exec i s = startPulse b a ms s)
  | lowerPulse (b : Byte) (a : Level) (ms : Nat) (h : ∀ s, exec i s = unlessSelector b (startPulse b a ms) s)
  | help (h : ∀ s, exec i s = execHelp s)
  | unknown (op : Byte) (h : ∀ s, exec i s = execUnk op s)

theorem exec_shape (i : Instr) : ExecShape i := by
  cases i with
  | high => exact .level _ _ fun _ => rfl
  | low => exact .level _ _ fun _ => rfl
  | shortHigh => exact .pulse _ _ _ fun _ => rfl
  | longHigh => exact .pulse _ _ _ fun _ => rfl
  | shortLow => exact .lowerPulse _ _ _ fun _ => rfl
  | longLow => exact .lowerPulse _ _ _ fun _ => rfl
  | help => exact .help fun _ => rfl
  | unk op => exact .unknown op fun _ => rfl
  | _ => exact .selection _ fun _ => rfl

/-- A command that answers a next state has done one of these (R50, the arms of `PHASE = IDLE`). -/
inductive ExecCase (i : Instr) (s t : State) : Prop where
  /-- R53, R54: a selection. -/
  | selected (p : PinRef) (hp : s.cfg.lookup i.byte = some p)
      (ht : t = ((s.setSel p).dropByte).record (.ran ([.rxTake i.byte] ++ echo i.byte s.txr ++ [.poll])))
  /-- R55, R56: the selected pin driven. -/
  | driven (l : Level) (hi : i = .high ∧ l = .high ∨ i = .low ∧ l = .low) (hp : s.sel.port < s.cfg.nPort)
      (ht : t = (s.dropByte.drive s.sel l).record
        (.ran ([.rxTake i.byte, .pinSet s.sel l] ++ echo i.byte s.txr ++ [.poll])))
  /-- R57 to R61: a pulse started. -/
  | started (a : Level) (ms : Nat)
      (hi : i = .shortLow ∧ a = .low ∧ ms = 100 ∧ s.cfg.lookup 0x74 = none ∨ i = .shortHigh ∧ a = .high ∧ ms = 100 ∨
        i = .longLow ∧ a = .low ∧ ms = 1000 ∧ s.cfg.lookup 0x75 = none ∨ i = .longHigh ∧ a = .high ∧ ms = 1000)
      (hp : s.sel.port < s.cfg.nPort) (hm : s.tmr = .idle)
      (ht : t = ((((s.beginWait i.byte).dropByte).drive s.sel a).setTimer (.running ms)).record
        (.ran [.rxTake i.byte, .pinSet s.sel a, .tmrStart ms]))
  /-- R63: the help text offered. -/
  | helped (hi : i = .help)
      (ht : t = s.dropByte.record (.ran ([.rxTake i.byte] ++ sendText s.cfg.helpText s.txr ++ [.poll])))
  /-- R64: an unknown byte answered. -/
  | unknown (hc : classify s.cfg i.byte = .unknown)
      (ht : t = s.dropByte.record (.ran ([.rxTake i.byte] ++ echo 0x3F s.txr ++ [.poll])))

theorem exec_cases {i : Instr} {s t : State} (h : exec i s = .next t) : ExecCase i s t := by
  cases i with
  | high =>
    obtain ⟨hp, ht⟩ := setLevel_cases h
    exact .driven .high (.inl ⟨rfl, rfl⟩) hp ht
  | low =>
    obtain ⟨hp, ht⟩ := setLevel_cases h
    exact .driven .low (.inr ⟨rfl, rfl⟩) hp ht
  | shortLow =>
    obtain ⟨hn, h⟩ := unlessSelector_cases h
    obtain ⟨hp, hm, ht⟩ := startPulse_cases h
    exact .started .low 100 (.inl ⟨rfl, rfl, rfl, hn⟩) hp hm ht
  | shortHigh =>
    obtain ⟨hp, hm, ht⟩ := startPulse_cases h
    exact .started .high 100 (.inr (.inl ⟨rfl, rfl, rfl⟩)) hp hm ht
  | longLow =>
    obtain ⟨hn, h⟩ := unlessSelector_cases h
    obtain ⟨hp, hm, ht⟩ := startPulse_cases h
    exact .started .low 1000 (.inr (.inr (.inl ⟨rfl, rfl, rfl, hn⟩))) hp hm ht
  | longHigh =>
    obtain ⟨hp, hm, ht⟩ := startPulse_cases h
    exact .started .high 1000 (.inr (.inr (.inr ⟨rfl, rfl, rfl⟩))) hp hm ht
  | help =>
    simp only [exec, sendHelp_next] at h
    exact .helped rfl (Outcome.next.inj h).symm
  | unk op =>
    obtain ⟨hc, ht⟩ := execUnk_cases h
    exact .unknown hc ht
  | sel_0 => exact (select_cases h).elim fun p hp => .selected p hp.1 hp.2
  | sel_1 => exact (select_cases h).elim fun p hp => .selected p hp.1 hp.2
  | sel_2 => exact (select_cases h).elim fun p hp => .selected p hp.1 hp.2
  | sel_3 => exact (select_cases h).elim fun p hp => .selected p hp.1 hp.2
  | sel_4 => exact (select_cases h).elim fun p hp => .selected p hp.1 hp.2
  | sel_5 => exact (select_cases h).elim fun p hp => .selected p hp.1 hp.2
  | sel_6 => exact (select_cases h).elim fun p hp => .selected p hp.1 hp.2
  | sel_7 => exact (select_cases h).elim fun p hp => .selected p hp.1 hp.2
  | sel_8 => exact (select_cases h).elim fun p hp => .selected p hp.1 hp.2
  | sel_9 => exact (select_cases h).elim fun p hp => .selected p hp.1 hp.2
  | sel_a => exact (select_cases h).elim fun p hp => .selected p hp.1 hp.2
  | sel_b => exact (select_cases h).elim fun p hp => .selected p hp.1 hp.2
  | sel_c => exact (select_cases h).elim fun p hp => .selected p hp.1 hp.2
  | sel_d => exact (select_cases h).elim fun p hp => .selected p hp.1 hp.2
  | sel_e => exact (select_cases h).elim fun p hp => .selected p hp.1 hp.2
  | sel_f => exact (select_cases h).elim fun p hp => .selected p hp.1 hp.2
  | sel_g => exact (select_cases h).elim fun p hp => .selected p hp.1 hp.2
  | sel_h => exact (select_cases h).elim fun p hp => .selected p hp.1 hp.2
  | sel_i => exact (select_cases h).elim fun p hp => .selected p hp.1 hp.2
  | sel_j => exact (select_cases h).elim fun p hp => .selected p hp.1 hp.2
  | sel_k => exact (select_cases h).elim fun p hp => .selected p hp.1 hp.2
  | sel_l => exact (select_cases h).elim fun p hp => .selected p hp.1 hp.2
  | sel_m => exact (select_cases h).elim fun p hp => .selected p hp.1 hp.2
  | sel_n => exact (select_cases h).elim fun p hp => .selected p hp.1 hp.2
  | sel_o => exact (select_cases h).elim fun p hp => .selected p hp.1 hp.2
  | sel_p => exact (select_cases h).elim fun p hp => .selected p hp.1 hp.2
  | sel_q => exact (select_cases h).elim fun p hp => .selected p hp.1 hp.2
  | sel_r => exact (select_cases h).elim fun p hp => .selected p hp.1 hp.2
  | sel_s => exact (select_cases h).elim fun p hp => .selected p hp.1 hp.2
  | sel_t => exact (select_cases h).elim fun p hp => .selected p hp.1 hp.2
  | sel_u => exact (select_cases h).elim fun p hp => .selected p hp.1 hp.2
  | sel_v => exact (select_cases h).elim fun p hp => .selected p hp.1 hp.2
  | sel_w => exact (select_cases h).elim fun p hp => .selected p hp.1 hp.2
  | sel_x => exact (select_cases h).elim fun p hp => .selected p hp.1 hp.2
  | sel_y => exact (select_cases h).elim fun p hp => .selected p hp.1 hp.2
  | sel_z => exact (select_cases h).elim fun p hp => .selected p hp.1 hp.2

/-- A step that answers a next state has made one of these transitions, and then the environment has moved (R43, R50). -/
inductive StepCase (s u : State) : Prop where
  /-- R80: a reset cycle. -/
  | reset (hr : s.rst = true) (hu : u = s.initialise)
  /-- R44: nothing to do. -/
  | idled (hr : s.rst = false) (hp : s.phase = .idle) (hq : s.pending = []) (hu : u = s.record (.ran [.poll]))
  /-- R45: a byte taken and its command executed. -/
  | took (b : Byte) (rest : List Byte) (hr : s.rst = false) (hp : s.phase = .idle) (hq : s.pending = b :: rest)
      (hx : ExecCase (decodeByte s.cfg b) s u)
  /-- R48: a hold. -/
  | held (hr : s.rst = false) (hp : s.phase = .wait) (hm : s.tmr ≠ .expired) (hu : u = s.record (.ran []))
  /-- R62: a pulse completed. -/
  | completed (l : Level) (hr : s.rst = false) (hp : s.phase = .wait) (hm : s.tmr = .expired)
      (hl : secondLevel (classify s.cfg s.cur) = some l) (hs : s.sel.port < s.cfg.nPort)
      (hu : u = (((s.endWait.setTimer .idle)).drive s.sel l).record
        (.ran ([.tmrDone, .pinSet s.sel l] ++ echo s.cur s.txr ++ [.poll])))

theorem step_cases {s t : State} (h : step s = .next t) : s.cfg.wf ∧ ∃ u, t = u.envStep ∧ StepCase s u := by
  obtain ⟨hwf, u, ht, hr | hr⟩ := cycle_cases h
  · exact ⟨hwf, u, ht, .reset hr.1 hr.2⟩
  · refine ⟨hwf, u, ht, ?_⟩
    rcases dispatch_cases hr.2 with ⟨hp, hq, hu⟩ | ⟨hp, b, rest, hq, hu⟩ | ⟨hp, hm, hu⟩ | ⟨hp, hm, hu⟩
    · exact .idled hr.1 hp hq hu
    · exact .took b rest hr.1 hp hq (exec_cases hu)
    · exact .held hr.1 hp hm hu
    · obtain ⟨l, hl, hs, hu⟩ := completePulse_cases hu
      exact .completed l hr.1 hp hm hl hs hu

end Sys2Proof.Machine
end

