-- ==== Sys2Proof/Tests/Slice0.lean ====
section
/-! SUPPORT. Tests. Expected results are those of 95_test_vectors.md (the vectors V1 to V47 and the table of section 2.7), and of the
spec's encodings. The witnesses show that the statements' hypotheses can be met. -/

namespace Sys2Proof.Tests

open Sys2Proof.Machine

/-! ### Helpers -/

/-- A state between commands: the configuration, the selection, what is pending, whether the transmit path is ready; the
environment's next move does nothing. -/
def idleAt (c : Config) (p : PinRef) (pending : List Byte) (ready : Bool) : State :=
  { State.resetOf c with sel := p, pending := pending, txReady := ready, env := [quietMove false false] }

/-- A state inside the pulse of command byte `b`, with the timer as given. -/
def waitAt (c : Config) (p : PinRef) (b : Byte) (timer : Timer) (ready : Bool) : State :=
  { State.resetOf c with
    sel := p, cur := b, phase := .wait, tmr := timer, txReady := ready
    pinlvl := [(p.key, .low)], env := [quietMove false false] }

/-- What a vector shows of a step: SEL, PHASE, CUR and the events. -/
def seen (o : Host.Outcome State Fault Refusal) : Option (PinRef × Phase × Byte × List Event) :=
  match o with
  | .next t => some (t.sel, t.phase, t.cur, t.out)
  | .fault _ => none
  | .refused _ => none

/-! ### Ill-formed configurations and commands (R6; R54, R58, R60, R64) -/

theorem test_fixtures_wf : Config.fixtureTC1.wf ∧ Config.fixtureTC2.wf := by decide
theorem test_defect_letters : { Config.fixtureTC2 with nLetter := 27 }.defect? = some .tooManyLetters := by decide
theorem test_defect_ports : { Config.fixtureTC1 with nPort := 0 }.defect? = some .noPort := by decide
theorem test_defect_table : { Config.fixtureTC1 with nLetter := 7 }.defect? = some .tableNotAlphabet := by decide
theorem test_defect_pin : { Config.fixtureTC1 with nPort := 2 }.defect? = some .portOutOfRange := by decide
theorem test_defect_help : { Config.fixtureTC1 with helpText := [0x80] }.defect? = some .helpNotAscii := by decide
theorem test_ill_formed_commands :
    ¬ Instr.wf Config.fixtureTC1 .sel_g ∧ ¬ Instr.wf Config.fixtureTC1 .sel_z ∧ ¬ Instr.wf Config.fixtureTC2 .shortLow ∧
    ¬ Instr.wf Config.fixtureTC2 .longLow ∧ ¬ Instr.wf Config.fixtureTC1 (.unk 0x30) ∧
    ¬ Instr.wf Config.fixtureTC1 (.unk 0x66) ∧ ¬ Instr.wf Config.fixtureTC1 (.unk 0x48) := by decide
theorem test_ill_formed_config_stops_step :
    step (State.resetOf { Config.fixtureTC1 with nPort := 0 }) = .refused (.illFormedConfig .noPort) := rfl

/-! ### Decoding, each byte written out in bits from the opcode table -/

theorem test_decode_digits :
    decodeByte Config.fixtureTC2 0b00110000 = .sel_0 ∧
    decodeByte Config.fixtureTC2 0b00110001 = .sel_1 ∧
    decodeByte Config.fixtureTC2 0b00110010 = .sel_2 ∧
    decodeByte Config.fixtureTC2 0b00110011 = .sel_3 ∧
    decodeByte Config.fixtureTC2 0b00110100 = .sel_4 ∧
    decodeByte Config.fixtureTC2 0b00110101 = .sel_5 ∧
    decodeByte Config.fixtureTC2 0b00110110 = .sel_6 ∧
    decodeByte Config.fixtureTC2 0b00110111 = .sel_7 ∧
    decodeByte Config.fixtureTC2 0b00111000 = .sel_8 ∧
    decodeByte Config.fixtureTC2 0b00111001 = .sel_9 := by decide
theorem test_decode_letters_a_to_m :
    decodeByte Config.fixtureTC2 0b01100001 = .sel_a ∧
    decodeByte Config.fixtureTC2 0b01100010 = .sel_b ∧
    decodeByte Config.fixtureTC2 0b01100011 = .sel_c ∧
    decodeByte Config.fixtureTC2 0b01100100 = .sel_d ∧
    decodeByte Config.fixtureTC2 0b01100101 = .sel_e ∧
    decodeByte Config.fixtureTC2 0b01100110 = .sel_f ∧
    decodeByte Config.fixtureTC2 0b01100111 = .sel_g ∧
    decodeByte Config.fixtureTC2 0b01101000 = .sel_h ∧
    decodeByte Config.fixtureTC2 0b01101001 = .sel_i ∧
    decodeByte Config.fixtureTC2 0b01101010 = .sel_j ∧
    decodeByte Config.fixtureTC2 0b01101011 = .sel_k ∧
    decodeByte Config.fixtureTC2 0b01101100 = .sel_l ∧
    decodeByte Config.fixtureTC2 0b01101101 = .sel_m := by decide
theorem test_decode_letters_n_to_z :
    decodeByte Config.fixtureTC2 0b01101110 = .sel_n ∧
    decodeByte Config.fixtureTC2 0b01101111 = .sel_o ∧
    decodeByte Config.fixtureTC2 0b01110000 = .sel_p ∧
    decodeByte Config.fixtureTC2 0b01110001 = .sel_q ∧
    decodeByte Config.fixtureTC2 0b01110010 = .sel_r ∧
    decodeByte Config.fixtureTC2 0b01110011 = .sel_s ∧
    decodeByte Config.fixtureTC2 0b01110100 = .sel_t ∧
    decodeByte Config.fixtureTC2 0b01110101 = .sel_u ∧
    decodeByte Config.fixtureTC2 0b01110110 = .sel_v ∧
    decodeByte Config.fixtureTC2 0b01110111 = .sel_w ∧
    decodeByte Config.fixtureTC2 0b01111000 = .sel_x ∧
    decodeByte Config.fixtureTC2 0b01111001 = .sel_y ∧
    decodeByte Config.fixtureTC2 0b01111010 = .sel_z := by decide
theorem test_decode_operations :
    decodeByte Config.fixtureTC1 0b01001000 = .high ∧
    decodeByte Config.fixtureTC1 0b01001100 = .low ∧
    decodeByte Config.fixtureTC1 0b01110100 = .shortLow ∧
    decodeByte Config.fixtureTC1 0b01010100 = .shortHigh ∧
    decodeByte Config.fixtureTC1 0b01110101 = .longLow ∧
    decodeByte Config.fixtureTC1 0b01010101 = .longHigh ∧
    decodeByte Config.fixtureTC1 0b00111111 = .help := by decide
theorem test_decode_unknown :
    decodeByte Config.fixtureTC1 0x2F = .unk 0x2F ∧
    decodeByte Config.fixtureTC1 0x3A = .unk 0x3A ∧
    decodeByte Config.fixtureTC1 0x60 = .unk 0x60 ∧
    decodeByte Config.fixtureTC1 0x67 = .unk 0x67 ∧
    decodeByte Config.fixtureTC1 0x68 = .unk 0x68 ∧
    decodeByte Config.fixtureTC1 0x6C = .unk 0x6C ∧
    decodeByte Config.fixtureTC1 0x73 = .unk 0x73 ∧
    decodeByte Config.fixtureTC1 0x76 = .unk 0x76 ∧
    decodeByte Config.fixtureTC1 0x7A = .unk 0x7A ∧
    decodeByte Config.fixtureTC1 0x7B = .unk 0x7B ∧
    decodeByte Config.fixtureTC1 0x80 = .unk 0x80 ∧
    decodeByte Config.fixtureTC1 0x20 = .unk 0x20 ∧
    decodeByte Config.fixtureTC1 0x0D = .unk 0x0D ∧
    decodeByte Config.fixtureTC1 0x0A = .unk 0x0A ∧
    decodeByte Config.fixtureTC1 0x00 = .unk 0x00 ∧
    decodeByte Config.fixtureTC1 0xFF = .unk 0xFF ∧
    decodeByte Config.fixtureTC1 0xC8 = .unk 0xC8 ∧
    decodeByte Config.fixtureTC1 0x41 = .unk 0x41 ∧
    decodeByte Config.fixtureTC1 0x78 = .unk 0x78 ∧
    decodeByte Config.fixtureTC1 0x3E = .unk 0x3E ∧
    decodeByte Config.fixtureTC1 0x40 = .unk 0x40 := by decide
/-- The SELECT rows of section 2.7. -/
theorem test_fixture_tables :
    Config.fixtureTC1.lookup 0x30 = some ⟨1, 0⟩ ∧ Config.fixtureTC2.lookup 0x30 = some ⟨0, 0⟩ ∧
    Config.fixtureTC1.lookup 0x39 = some ⟨2, 1⟩ ∧ Config.fixtureTC2.lookup 0x39 = some ⟨1, 1⟩ ∧
    Config.fixtureTC1.lookup 0x61 = some ⟨2, 2⟩ ∧ Config.fixtureTC2.lookup 0x61 = some ⟨1, 2⟩ ∧
    Config.fixtureTC1.lookup 0x66 = some ⟨2, 7⟩ ∧ Config.fixtureTC2.lookup 0x66 = some ⟨1, 7⟩ ∧
    Config.fixtureTC1.lookup 0x67 = none ∧ Config.fixtureTC2.lookup 0x67 = some ⟨2, 0⟩ ∧
    Config.fixtureTC1.lookup 0x68 = none ∧ Config.fixtureTC2.lookup 0x68 = some ⟨2, 1⟩ ∧
    Config.fixtureTC1.lookup 0x6C = none ∧ Config.fixtureTC2.lookup 0x6C = some ⟨2, 5⟩ ∧
    Config.fixtureTC1.lookup 0x73 = none ∧ Config.fixtureTC2.lookup 0x73 = some ⟨3, 4⟩ ∧
    Config.fixtureTC1.lookup 0x74 = none ∧ Config.fixtureTC2.lookup 0x74 = some ⟨3, 5⟩ ∧
    Config.fixtureTC1.lookup 0x75 = none ∧ Config.fixtureTC2.lookup 0x75 = some ⟨3, 6⟩ ∧
    Config.fixtureTC1.lookup 0x76 = none ∧ Config.fixtureTC2.lookup 0x76 = some ⟨3, 7⟩ ∧
    Config.fixtureTC1.lookup 0x7A = none ∧ Config.fixtureTC2.lookup 0x7A = some ⟨4, 3⟩ ∧
    Config.fixtureTC1.lookup 0x7B = none ∧ Config.fixtureTC2.lookup 0x7B = none := by decide
theorem test_decode_needs_a_byte : decode Config.fixtureTC1 [] = .error .noByte := rfl
theorem test_table_word : decodeTableWord 8 0x48 = some .high := by decide
theorem test_fetch_word : (step (State.reset.withFetchWord 8 0x48)) =
    .next (State.envStep { State.reset with
      pinlvl := [(0, .high)], trace := [.ran [.rxTake 0x48, .pinSet ⟨0, 0⟩ .high, .poll]] }) := rfl
theorem test_port_widths : Config.fixtureTC1.portW = 2 ∧ Config.fixtureTC2.portW = 3 := by decide

/-! ### The vectors of 95_test_vectors.md -/

/-- V1. -/
theorem test_V1_select_after_reset :
    seen (step (idleAt Config.fixtureTC1 ⟨0, 0⟩ [0x30] true)) =
      some (⟨1, 0⟩, .idle, 0x00, [.rxTake 0x30, .txByte 0x30, .poll]) := by decide
/-- V2. -/
theorem test_V2_last_digit :
    seen (step (idleAt Config.fixtureTC1 ⟨1, 0⟩ [0x39] true)) =
      some (⟨2, 1⟩, .idle, 0x00, [.rxTake 0x39, .txByte 0x39, .poll]) := by decide
/-- V3. -/
theorem test_V3_echo_dropped :
    seen (step (idleAt Config.fixtureTC1 ⟨2, 1⟩ [0x66] false)) =
      some (⟨2, 7⟩, .idle, 0x00, [.rxTake 0x66, .poll]) := by decide
/-- V4. -/
theorem test_V4_reselect :
    seen (step (idleAt Config.fixtureTC1 ⟨1, 3⟩ [0x33] true)) =
      some (⟨1, 3⟩, .idle, 0x00, [.rxTake 0x33, .txByte 0x33, .poll]) := by decide
/-- V5. -/
theorem test_V5_first_letter :
    seen (step (idleAt Config.fixtureTC1 ⟨2, 7⟩ [0x61] true)) =
      some (⟨2, 2⟩, .idle, 0x00, [.rxTake 0x61, .txByte 0x61, .poll]) := by decide
/-- V6. -/
theorem test_V6_past_the_bound :
    seen (step (idleAt Config.fixtureTC1 ⟨2, 7⟩ [0x67] true)) =
      some (⟨2, 7⟩, .idle, 0x00, [.rxTake 0x67, .txByte 0x3F, .poll]) := by decide
/-- V7. -/
theorem test_V7_t_selects :
    seen (step (idleAt Config.fixtureTC2 ⟨0, 0⟩ [0x74] true)) =
      some (⟨3, 5⟩, .idle, 0x00, [.rxTake 0x74, .txByte 0x74, .poll]) := by decide
/-- V8. -/
theorem test_V8_u_selects :
    seen (step (idleAt Config.fixtureTC2 ⟨3, 5⟩ [0x75] true)) =
      some (⟨3, 6⟩, .idle, 0x00, [.rxTake 0x75, .txByte 0x75, .poll]) := by decide
/-- V9. -/
theorem test_V9_last_letter :
    seen (step (idleAt Config.fixtureTC2 ⟨3, 6⟩ [0x7A] true)) =
      some (⟨4, 3⟩, .idle, 0x00, [.rxTake 0x7A, .txByte 0x7A, .poll]) := by decide
/-- V10. -/
theorem test_V10_default_pin_selected :
    seen (step (idleAt Config.fixtureTC2 ⟨4, 3⟩ [0x30] true)) =
      some (⟨0, 0⟩, .idle, 0x00, [.rxTake 0x30, .txByte 0x30, .poll]) := by decide
/-- V11. -/
theorem test_V11_h_selects :
    seen (step (idleAt Config.fixtureTC2 ⟨0, 0⟩ [0x68] true)) =
      some (⟨2, 1⟩, .idle, 0x00, [.rxTake 0x68, .txByte 0x68, .poll]) := by decide
/-- V12. -/
theorem test_V12_default_pin :
    seen (step (idleAt Config.fixtureTC1 ⟨0, 0⟩ [0x48] true)) =
      some (⟨0, 0⟩, .idle, 0x00, [.rxTake 0x48, .pinSet ⟨0, 0⟩ .high, .txByte 0x48, .poll]) := by decide
/-- V13. -/
theorem test_V13_low :
    seen (step (idleAt Config.fixtureTC1 ⟨1, 3⟩ [0x4C] true)) =
      some (⟨1, 3⟩, .idle, 0x00, [.rxTake 0x4C, .pinSet ⟨1, 3⟩ .low, .txByte 0x4C, .poll]) := by decide
/-- V14. -/
theorem test_V14_driven_echo_dropped :
    seen (step (idleAt Config.fixtureTC1 ⟨1, 3⟩ [0x48] false)) =
      some (⟨1, 3⟩, .idle, 0x00, [.rxTake 0x48, .pinSet ⟨1, 3⟩ .high, .poll]) := by decide
/-- V16. -/
theorem test_V16_upper_case_with_full_alphabet :
    seen (step (idleAt Config.fixtureTC2 ⟨3, 5⟩ [0x4C] true)) =
      some (⟨3, 5⟩, .idle, 0x00, [.rxTake 0x4C, .pinSet ⟨3, 5⟩ .low, .txByte 0x4C, .poll]) := by decide
/-- V17. -/
theorem test_V17_t_starts :
    seen (step (idleAt Config.fixtureTC1 ⟨1, 5⟩ [0x74] true)) =
      some (⟨1, 5⟩, .wait, 0x74, [.rxTake 0x74, .pinSet ⟨1, 5⟩ .low, .tmrStart 100]) := by decide
/-- V18: a byte pending during the delay is not taken. -/
theorem test_V18_hold :
    seen (step { waitAt Config.fixtureTC1 ⟨1, 5⟩ 0x74 (.running 100) true with pending := [0x48] }) =
      some (⟨1, 5⟩, .wait, 0x74, []) := by decide
/-- V19. -/
theorem test_V19_t_completes :
    seen (step (waitAt Config.fixtureTC1 ⟨1, 5⟩ 0x74 .expired true)) =
      some (⟨1, 5⟩, .idle, 0x74, [.tmrDone, .pinSet ⟨1, 5⟩ .high, .txByte 0x74, .poll]) := by decide
/-- V20. -/
theorem test_V20_T_starts :
    seen (step (idleAt Config.fixtureTC1 ⟨1, 5⟩ [0x54] true)) =
      some (⟨1, 5⟩, .wait, 0x54, [.rxTake 0x54, .pinSet ⟨1, 5⟩ .high, .tmrStart 100]) := by decide
/-- V22. -/
theorem test_V22_T_completes_echo_dropped :
    seen (step (waitAt Config.fixtureTC1 ⟨1, 5⟩ 0x54 .expired false)) =
      some (⟨1, 5⟩, .idle, 0x54, [.tmrDone, .pinSet ⟨1, 5⟩ .low, .poll]) := by decide
/-- V23. -/
theorem test_V23_u_starts :
    seen (step (idleAt Config.fixtureTC1 ⟨0, 0⟩ [0x75] true)) =
      some (⟨0, 0⟩, .wait, 0x75, [.rxTake 0x75, .pinSet ⟨0, 0⟩ .low, .tmrStart 1000]) := by decide
/-- V24. -/
theorem test_V24_u_completes :
    seen (step (waitAt Config.fixtureTC1 ⟨0, 0⟩ 0x75 .expired true)) =
      some (⟨0, 0⟩, .idle, 0x75, [.tmrDone, .pinSet ⟨0, 0⟩ .high, .txByte 0x75, .poll]) := by decide
/-- V25. -/
theorem test_V25_U_starts :
    seen (step (idleAt Config.fixtureTC1 ⟨2, 7⟩ [0x55] true)) =
      some (⟨2, 7⟩, .wait, 0x55, [.rxTake 0x55, .pinSet ⟨2, 7⟩ .high, .tmrStart 1000]) := by decide
/-- V26. -/
theorem test_V26_U_completes :
    seen (step (waitAt Config.fixtureTC1 ⟨2, 7⟩ 0x55 .expired true)) =
      some (⟨2, 7⟩, .idle, 0x55, [.tmrDone, .pinSet ⟨2, 7⟩ .low, .txByte 0x55, .poll]) := by decide
/-- V28. -/
theorem test_V28_help :
    seen (step (idleAt Config.fixtureTC1 ⟨1, 3⟩ [0x3F] true)) =
      some (⟨1, 3⟩, .idle, 0x00, [.rxTake 0x3F, .txString Config.fixtureHelp, .poll]) := by decide
/-- V29. -/
theorem test_V29_help_dropped :
    seen (step (idleAt Config.fixtureTC1 ⟨1, 3⟩ [0x3F] false)) =
      some (⟨1, 3⟩, .idle, 0x00, [.rxTake 0x3F, .poll]) := by decide
/-- V35. -/
theorem test_V35_unknown :
    seen (step (idleAt Config.fixtureTC1 ⟨1, 3⟩ [0xFF] true)) =
      some (⟨1, 3⟩, .idle, 0x00, [.rxTake 0xFF, .txByte 0x3F, .poll]) := by decide
/-- V42. -/
theorem test_V42_unknown_dropped :
    seen (step (idleAt Config.fixtureTC1 ⟨1, 3⟩ [0x78] false)) =
      some (⟨1, 3⟩, .idle, 0x00, [.rxTake 0x78, .poll]) := by decide
/-- V44, and V45: a timer that is done is ignored between commands. -/
theorem test_V45_idle :
    seen (step { idleAt Config.fixtureTC1 ⟨1, 3⟩ [] true with tmr := .expired }) = some (⟨1, 3⟩, .idle, 0x00, [.poll]) := by decide
/-- V46: a reset in mid pulse writes no pin and sends nothing. -/
theorem test_V46_reset_in_pulse :
    seen (step { waitAt Config.fixtureTC1 ⟨1, 5⟩ 0x74 (.running 100) true with rst := true }) =
      some (⟨0, 0⟩, .idle, 0x00, []) := by decide
/-- V47: reset dominates a pending byte, which stays pending. -/
theorem test_V47_reset_before_byte :
    (match step { idleAt Config.fixtureTC1 ⟨2, 2⟩ [0x48] true with rst := true } with
      | .next t => some (t.sel, t.pending, t.out, t.pinlvl)
      | .fault _ => none
      | .refused _ => none) = some (⟨0, 0⟩, [0x48], [], []) := rfl

/-! ### Witnesses: the hypotheses of the statements can be met -/

/-- A state inside a pulse that meets the invariant, with the timer running or expired. -/
theorem inv_waitAt_running : (waitAt Config.fixtureTC1 ⟨1, 5⟩ 0x74 (.running 100) true).Inv where
  cfgWf := by decide
  portExists := by decide
  selFromTable := .inr ⟨0x35, by decide⟩
  waitIsPulse := fun _ => by decide
  timerOutstanding := by decide
  timerDuration := fun ms h => by cases h; rfl
  pinsCanonical := by decide
  pinsExist := by decide

theorem inv_waitAt_expired : (waitAt Config.fixtureTC1 ⟨1, 5⟩ 0x74 .expired true).Inv where
  cfgWf := by decide
  portExists := by decide
  selFromTable := .inr ⟨0x35, by decide⟩
  waitIsPulse := fun _ => by decide
  timerOutstanding := by decide
  timerDuration := fun ms h => by cases h
  pinsCanonical := by decide
  pinsExist := by decide

/-- A state between commands, with any pending bytes and any schedule, that meets the invariant. -/
theorem inv_idleAt (pending : List Byte) (env : List EnvMove) :
    { idleAt Config.fixtureTC1 ⟨1, 3⟩ pending true with env := env }.Inv where
  cfgWf := by show Config.fixtureTC1.wf; decide
  portExists := by show 1 < 3; decide
  selFromTable := .inr ⟨0x33, rfl⟩
  waitIsPulse := fun h => by cases h
  timerOutstanding := ⟨fun h => (by cases h), fun h => absurd rfl h⟩
  timerDuration := fun ms h => by cases h
  pinsCanonical := List.Pairwise.nil
  pinsExist := fun e h => by cases h

/-- ConfigurationsAreThoseAllowed, second part: the smallest configuration of the clauses, and TC2's bound of 26 letters. -/
theorem test_witness_ConfigurationsAreThoseAllowed :
    Config.fixtureTC1.wf ∧ Config.fixtureTC2.wf ∧
    ConfigAllowed 0 1 (fun b => if 0x30 ≤ b.toNat ∧ b.toNat ≤ 0x39 then some ⟨0, 7⟩ else none) [0x7F] := by
  refine ⟨by decide, by decide, by decide, fun b => ?_, fun b p h => ?_, by decide⟩
  · by_cases h : 0x30 ≤ b.toNat ∧ b.toNat ≤ 0x39
    · simp [h]
    · simp [h]
      omega
  · beta_reduce at h
    split at h
    · cases h
      decide
    · cases h
theorem test_witness_DecodeOfEncodeIsIdentity :
    Config.fixtureTC1.wf ∧ Instr.wf Config.fixtureTC1 .sel_f ∧ Instr.wf Config.fixtureTC1 (.unk 0x67) ∧
    Instr.wf Config.fixtureTC2 .sel_z := by decide
theorem test_witness_EveryByteIsOneCommand : Config.fixtureTC1.wf := by decide
/-- ClassOfEveryByte: each clause at a boundary of its range. -/
theorem test_witness_ClassOfEveryByte :
    Config.fixtureTC1.wf ∧ Config.fixtureTC1.nLetter ≤ 19 ∧ Config.fixtureTC1.nLetter ≤ 20 ∧
    (classify Config.fixtureTC1 0x66 = .selectPin ⟨2, 7⟩ ∧ classify Config.fixtureTC1 0x39 = .selectPin ⟨2, 1⟩) ∧
    isUnknownByte Config.fixtureTC1.nLetter 0x67 ∧ isUnknownByte Config.fixtureTC1.nLetter 0x3A := by decide
/-- A configuration with `n` letters, for the boundary cases of 19, 20 and 21 letters. -/
def withLetters (n : Nat) : Config :=
  { nLetter := n, nPort := 5, pinTable := Config.consecutive 0 (Config.alphabet n), helpText := [] }
theorem test_witness_SelectorTakesPriorityOverPulse :
    (withLetters 19).wf ∧ decodeByte (withLetters 19) 0x74 = .shortLow ∧
    (withLetters 20).wf ∧ decodeByte (withLetters 20) 0x74 = .sel_t ∧ decodeByte (withLetters 20) 0x75 = .longLow ∧
    (withLetters 21).wf ∧ decodeByte (withLetters 21) 0x75 = .sel_u := by decide
theorem test_witness_ClassSizes : (withLetters 19).wf ∧ (withLetters 19).nLetter ≤ 19 := by decide
theorem test_witness_DigitSelectorsSelect : Config.fixtureTC1.wf ∧ Instr.sel_0 ∈ digitCommands ∧ Instr.sel_9 ∈ digitCommands := by decide
/-- LetterSelectorsSelect: the last letter a configuration has, the first it has not, and the two that fall to a pulse. -/
theorem test_witness_LetterSelectorsSelect :
    (6, Instr.sel_f) ∈ letterCommands ∧ 6 ≤ Config.fixtureTC1.nLetter ∧ (7, Instr.sel_g) ∈ letterCommands ∧
    Config.fixtureTC1.nLetter < 7 ∧ (20, Instr.sel_t) ∈ letterCommands ∧ (withLetters 19).wf ∧ (withLetters 19).nLetter < 20 ∧
    (21, Instr.sel_u) ∈ letterCommands ∧ (withLetters 20).wf ∧ (withLetters 20).nLetter < 21 := by decide
theorem test_witness_HDrivesSelectedPinHigh : State.reset.sel.port < State.reset.cfg.nPort := by decide
theorem test_witness_LDrivesSelectedPinLow :
    (idleAt Config.fixtureTC1 ⟨2, 7⟩ [0x4C] true).sel.port < Config.fixtureTC1.nPort := by decide
theorem test_witness_ShortLowPulse :
    (withLetters 19).wf ∧ (withLetters 19).nLetter ≤ 19 ∧ 4 < (withLetters 19).nPort ∧
    (idleAt (withLetters 19) ⟨4, 0⟩ [0x74] true).tmr = .idle ∧
    (waitAt (withLetters 19) ⟨4, 0⟩ 0x74 .expired true).phase = .wait ∧ (waitAt (withLetters 19) ⟨4, 0⟩ 0x74 .expired true).rst = false ∧
    (waitAt (withLetters 19) ⟨4, 0⟩ 0x74 .expired true).cur = 0x74 ∧ (waitAt (withLetters 19) ⟨4, 0⟩ 0x74 .expired true).tmr = .expired ∧
    (waitAt (withLetters 19) ⟨4, 0⟩ 0x74 (.running 100) true).tmr ≠ .expired := by decide
theorem test_witness_ShortLowPulse_selector : (withLetters 20).wf ∧ 20 ≤ (withLetters 20).nLetter := by decide
theorem test_witness_LongLowPulse_selector : (withLetters 21).wf ∧ 21 ≤ (withLetters 21).nLetter := by decide
theorem test_witness_ShortHighPulse :
    Config.fixtureTC2.wf ∧ (0 < Config.fixtureTC2.nPort) ∧ State.reset.tmr = .idle ∧
    (waitAt Config.fixtureTC2 ⟨0, 0⟩ 0x54 .expired true).tmr = .expired ∧
    (waitAt Config.fixtureTC2 ⟨0, 0⟩ 0x54 .expired true).cur = 0x54 ∧ (waitAt Config.fixtureTC2 ⟨0, 0⟩ 0x54 .expired true).phase = .wait := by decide
theorem test_witness_LongLowPulse :
    (withLetters 20).wf ∧ (withLetters 20).nLetter ≤ 20 ∧ 4 < (withLetters 20).nPort ∧
    (idleAt (withLetters 20) ⟨4, 0⟩ [0x75] true).tmr = .idle ∧
    (waitAt (withLetters 20) ⟨4, 0⟩ 0x75 .expired true).cur = 0x75 ∧ (waitAt (withLetters 20) ⟨4, 0⟩ 0x75 .expired true).tmr = .expired := by decide
theorem test_witness_LongHighPulse :
    Config.fixtureTC2.wf ∧ (0 < Config.fixtureTC2.nPort) ∧ State.reset.tmr = .idle ∧
    (waitAt Config.fixtureTC2 ⟨0, 0⟩ 0x55 .expired true).tmr = .expired ∧
    (waitAt Config.fixtureTC2 ⟨0, 0⟩ 0x55 .expired true).cur = 0x55 := by decide
theorem test_witness_UnknownByteIsAnsweredQuestionMark :
    Config.fixtureTC2.wf ∧ isUnknownByte Config.fixtureTC2.nLetter 0x7B ∧ isUnknownByte Config.fixtureTC2.nLetter 0xFF := by decide
theorem test_witness_FrameOfCommandsWithoutPinEffect :
    (∃ t, exec .sel_3 (idleAt Config.fixtureTC1 ⟨0, 0⟩ [0x33] true) = .next t) ∧
    (∃ t, exec .sel_f (idleAt Config.fixtureTC1 ⟨0, 0⟩ [0x66] true) = .next t) ∧
    (∃ t, exec .help (idleAt Config.fixtureTC1 ⟨0, 0⟩ [0x3F] true) = .next t) ∧
    (∃ t, exec (.unk 0x0A) (idleAt Config.fixtureTC1 ⟨0, 0⟩ [0x0A] true) = .next t) :=
  ⟨⟨_, rfl⟩, ⟨_, rfl⟩, ⟨_, rfl⟩, ⟨_, rfl⟩⟩
theorem test_witness_FrameOfCommandsWithPinEffect :
    (∃ t, exec .high (idleAt Config.fixtureTC1 ⟨1, 3⟩ [0x48] true) = .next t) ∧
    (∃ t, exec .shortLow (idleAt Config.fixtureTC1 ⟨1, 3⟩ [0x74] true) = .next t) := ⟨⟨_, rfl⟩, ⟨_, rfl⟩⟩
/-- WhereCommandsStop: each clause. -/
theorem test_witness_WhereCommandsStop :
    Config.fixtureTC1.nPort ≤ (idleAt Config.fixtureTC1 ⟨3, 0⟩ [] true).sel.port ∧
    Config.fixtureTC1.lookup (Instr.byte .shortLow) = none ∧ Config.fixtureTC1.lookup (Instr.byte .longLow) = none ∧
    (waitAt Config.fixtureTC1 ⟨2, 0⟩ 0x74 .expired true).sel.port < Config.fixtureTC1.nPort ∧
    (waitAt Config.fixtureTC1 ⟨2, 0⟩ 0x74 .expired true).tmr ≠ .idle ∧
    (Config.fixtureTC2.lookup (Instr.byte .shortLow)).isSome ∧ Config.fixtureTC1.lookup (Instr.byte .sel_g) = none ∧
    classify Config.fixtureTC1 0x48 ≠ .unknown := by decide
theorem test_witness_PinWriteChangesOnePin : (PinRef.mk 4 7).port < State.reset.cfg.nPort := by decide
theorem test_witness_HTwiceIsIdempotentOnPins :
    (idleAt Config.fixtureTC1 ⟨2, 7⟩ [0x48, 0x48] true).sel.port < Config.fixtureTC1.nPort ∧
    (idleAt Config.fixtureTC1 ⟨2, 7⟩ [0x48, 0x48] true).txReady = true := by decide
theorem test_witness_StepRunsDecodedCommand :
    Config.fixtureTC1.wf ∧ (idleAt Config.fixtureTC1 ⟨1, 3⟩ [0x48] true).rst = false ∧
    (idleAt Config.fixtureTC1 ⟨1, 3⟩ [0x48] true).phase = .idle ∧
    (idleAt Config.fixtureTC1 ⟨1, 3⟩ [0x48] true).pending = [0x48] := by decide
theorem test_witness_IdleIterationOnlyPolls :
    State.reset.cfg.wf ∧ State.reset.rst = false ∧ State.reset.phase = .idle ∧ State.reset.pending = [] := by decide
theorem test_witness_HoldDoesNothing :
    (waitAt Config.fixtureTC1 ⟨1, 5⟩ 0x74 (.running 100) true).cfg.wf ∧
    (waitAt Config.fixtureTC1 ⟨1, 5⟩ 0x74 (.running 100) true).rst = false ∧
    (waitAt Config.fixtureTC1 ⟨1, 5⟩ 0x74 (.running 100) true).phase = .wait ∧
    (waitAt Config.fixtureTC1 ⟨1, 5⟩ 0x74 (.running 100) true).tmr ≠ .expired := by decide
theorem test_witness_CompletionDrivesSecondLevel :
    (waitAt Config.fixtureTC1 ⟨1, 5⟩ 0x74 .expired true).cfg.wf ∧
    (waitAt Config.fixtureTC1 ⟨1, 5⟩ 0x74 .expired true).rst = false ∧
    (waitAt Config.fixtureTC1 ⟨1, 5⟩ 0x74 .expired true).phase = .wait ∧
    (waitAt Config.fixtureTC1 ⟨1, 5⟩ 0x74 .expired true).tmr = .expired ∧
    (waitAt Config.fixtureTC1 ⟨1, 5⟩ 0x74 .expired true).sel.port < 3 ∧
    Config.fixtureTC1.lookup 0x74 = none ∧ Config.fixtureTC1.lookup 0x75 = none ∧
    Config.fixtureTC1.lookup 0x54 = none ∧ Config.fixtureTC1.lookup 0x55 = none := by decide
theorem test_witness_ResetCycleOverridesEverything :
    { waitAt Config.fixtureTC1 ⟨1, 5⟩ 0x74 (.running 100) true with rst := true }.cfg.wf := by decide
theorem test_witness_OnlyIllFormedConfigurationsAreRefused :
    (State.resetOf { Config.fixtureTC1 with nPort := 0 }).cfg.defect? = some .noPort := by decide
theorem test_witness_StepKeepsInvariant :
    ∃ s t : State, s.Inv ∧ s.phase = .wait ∧ step s = .next t ∧ t.phase = .idle :=
  ⟨_, _, inv_waitAt_expired, rfl, rfl, rfl⟩
theorem test_witness_InvariantHoldsAfterReset : State.reset.cfg.wf ∧ Config.fixtureTC1.wf := by decide
theorem test_witness_StepNeverStops : ∃ s : State, s.Inv ∧ s.pending = [0x74] := ⟨_, inv_idleAt [0x74] [], rfl⟩
/-- The state one step after reset with `H` pending: the trace laws hold in it and say something. -/
theorem test_witness_PinsFollowTheTrace :
    ∃ t, step { State.resetOf Config.fixtureTC1 with pending := [0x48] } = .next t ∧
      t.level ⟨0, 0⟩ = some .high ∧ tracedLevel ⟨0, 0⟩ t.trace = some .high := ⟨_, rfl, rfl, rfl⟩
theorem test_witness_SelectionFollowsTheTrace :
    ∃ t, step { State.resetOf Config.fixtureTC1 with pending := [0x33] } = .next t ∧
      t.sel = ⟨1, 3⟩ ∧ tracedSelection t.cfg t.trace = ⟨1, 3⟩ := ⟨_, rfl, rfl, rfl⟩
/-- The start of a pulse from a state that meets the invariant and the law of the timer. -/
theorem test_witness_TimerEventsAlternate :
    ∃ s t, s.Inv ∧ s.TimerLawful ∧ step s = .next t ∧ tracedTimer t.trace = .outstanding 100 :=
  ⟨_, _, inv_idleAt [0x74] [], rfl, rfl, rfl⟩
theorem test_witness_OnePollPerIteration :
    ∃ s t : State, s.PollLawful ∧ step s = .next t ∧ countSinceReset Event.isPoll t.trace = 1 :=
  ⟨{ State.resetOf Config.fixtureTC1 with pending := [0x48] }, _, rfl, rfl, rfl⟩
theorem test_witness_TransmissionsNeverExceedBytesTaken :
    ∃ s t : State, s.TransmitLawful ∧ step s = .next t ∧ countSinceReset Event.isTransmit t.trace = 1 :=
  ⟨{ State.resetOf Config.fixtureTC1 with pending := [0x48], txReady := true }, _, Nat.le_refl _, rfl, rfl⟩
theorem test_witness_EventsOfOneCycle :
    ∃ t, step (waitAt Config.fixtureTC1 ⟨1, 5⟩ 0x74 .expired true) = .next t ∧
      t.out = [.tmrDone, .pinSet ⟨1, 5⟩ .high, .txByte 0x74, .poll] := ⟨_, rfl, rfl⟩
theorem test_witness_OutputPortsObeyTheirRules :
    ∃ t, step (idleAt Config.fixtureTC1 ⟨1, 3⟩ [0x55] false) = .next t ∧ tmrPort t.out = some 1000#10 := ⟨_, rfl, rfl⟩
theorem test_witness_OnlySelectorsChangeTheSelection :
    ∃ t, step (idleAt Config.fixtureTC1 ⟨1, 3⟩ [0x66] true) = .next t ∧ t.sel ≠ ⟨1, 3⟩ := ⟨_, rfl, by decide⟩
/-- OnlyPulsesChangeThePhase: a pulse's start and its completion. -/
theorem test_witness_OnlyPulsesChangeThePhase :
    (∃ t, step (idleAt Config.fixtureTC1 ⟨1, 3⟩ [0x55] true) = .next t ∧ t.phase = .wait) ∧
    (∃ t, step (waitAt Config.fixtureTC1 ⟨1, 5⟩ 0x74 .expired true) = .next t ∧ t.phase = .idle) :=
  ⟨⟨_, rfl, rfl⟩, ⟨_, rfl, rfl⟩⟩
theorem test_witness_ConfigurationNeverChanges : ∃ t, step (idleAt Config.fixtureTC1 ⟨1, 3⟩ [0x30] true) = .next t := ⟨_, rfl⟩
/-- BytesAreTakenInOrder: a byte taken; a byte left pending in a hold; an idle iteration. -/
theorem test_witness_BytesAreTakenInOrder :
    (∃ t, step (idleAt Config.fixtureTC1 ⟨1, 3⟩ [0x30, 0x31] true) = .next t ∧ t.pending = [0x31]) ∧
    (∃ t, step { waitAt Config.fixtureTC1 ⟨1, 5⟩ 0x74 (.running 100) true with pending := [0x48] } = .next t ∧ t.pending = [0x48]) ∧
    (∃ t, step (idleAt Config.fixtureTC1 ⟨1, 3⟩ [] true) = .next t ∧ t.pending = []) :=
  ⟨⟨_, rfl, rfl⟩, ⟨_, rfl, rfl⟩, ⟨_, rfl, rfl⟩⟩
/-- R85: of two bytes that wait out a hold the adapter loses the older, and the newer stays (log 23). -/
theorem test_byte_lost_in_pulse :
    ∃ t, step { waitAt Config.fixtureTC1 ⟨1, 5⟩ 0x74 (.running 100) true with
        pending := [0x48, 0x4C], env := [{ quietMove true false with lose := [true, false], arrive := [0x3F] }] } = .next t ∧
      t.pending = [0x4C, 0x3F] ∧ t.out = [] := ⟨_, rfl, rfl, rfl⟩
/-- TimerMovesAsItsRuleSays: started, running on, consumed. -/
theorem test_witness_TimerMovesAsItsRuleSays :
    (∃ s t : State, s.Inv ∧ step s = .next t ∧ s.rst = false ∧ s.tmr = .idle ∧ t.tmr = .running 100) ∧
    (∃ s t : State, s.Inv ∧ step s = .next t ∧ s.rst = false ∧ s.tmr = .running 100 ∧ t.tmr = .running 100) ∧
    (∃ s t : State, s.Inv ∧ step s = .next t ∧ s.rst = false ∧ s.tmr = .expired ∧ t.tmr = .idle) :=
  ⟨⟨_, _, inv_idleAt [0x74] [quietMove true false], rfl, rfl, rfl, rfl⟩,
   ⟨_, _, inv_waitAt_running, rfl, rfl, rfl, rfl⟩, ⟨_, _, inv_waitAt_expired, rfl, rfl, rfl, rfl⟩⟩
theorem test_witness_PulseIgnoresTheTransport :
    ∃ t, step (waitAt Config.fixtureTC1 ⟨1, 5⟩ 0x74 .expired true) = .next t ∧
      (waitAt Config.fixtureTC1 ⟨1, 5⟩ 0x74 .expired true).phase = .wait ∧
      (waitAt Config.fixtureTC1 ⟨1, 5⟩ 0x74 .expired true).rst = false := ⟨_, rfl, rfl, rfl⟩
theorem test_witness_NotReadyOnlyDropsTheTransmission :
    ∃ t, step (idleAt Config.fixtureTC1 ⟨1, 3⟩ [0x48] true) = .next t := ⟨_, rfl⟩
/-- Two states that differ in the selection, both within the invariant, alike to the host. -/
theorem test_witness_SelectionAndPinsCannotBeRead :
    ∃ s u t : State, s.Inv ∧ u.Inv ∧ SameToHost s u ∧ s.sel ≠ u.sel ∧ step s = .next t :=
  ⟨{ idleAt Config.fixtureTC1 ⟨1, 3⟩ [0x48] true with env := [] },
   { idleAt Config.fixtureTC1 ⟨0, 0⟩ [0x48] true with env := [] }, _, inv_idleAt [0x48] [],
   { cfgWf := by decide, portExists := by decide, selFromTable := .inl rfl, waitIsPulse := fun h => by cases h
     timerOutstanding := ⟨fun h => (by cases h), fun h => absurd rfl h⟩, timerDuration := fun ms h => by cases h
     pinsCanonical := List.Pairwise.nil, pinsExist := fun e h => by cases h },
   ⟨rfl, rfl, rfl, rfl, rfl, rfl, rfl, rfl, rfl, rfl⟩, by decide, rfl⟩
theorem test_witness_PulseRunsToCompletion :
    ∃ s : State, s.Inv ∧ s.phase = .wait ∧ s.tmr = .running 100 ∧ s.rst = false ∧
      secondLevel (classify s.cfg s.cur) = some .high ∧
      s.env = List.replicate 1 (quietMove true false) ++ quietMove true true :: [] :=
  ⟨{ waitAt Config.fixtureTC1 ⟨1, 5⟩ 0x74 (.running 100) true with env := [quietMove true false, quietMove true true] },
   { inv_waitAt_running with }, rfl, rfl, rfl, by decide, rfl⟩
theorem test_witness_ReadyStreamIsEchoedByteByByte :
    ∃ s : State, s.Inv ∧ s.phase = .idle ∧ s.rst = false ∧ s.txReady = true ∧ s.pending = [0x33, 0x54] ∧
      (∀ b ∈ s.pending, b ≠ 0x3F) ∧ s.env = List.replicate (2 * s.pending.length) (quietMove true true) ++ [] :=
  ⟨_, inv_idleAt [0x33, 0x54] (List.replicate 4 (quietMove true true)), rfl, rfl, rfl, rfl, by decide, rfl⟩
theorem test_witness_LossesKeepOrder :
    [0x48, 0x3F].Sublist ([0x48, 0x4C, 0x3F] : List Byte) ∧ survivors [false, true] [0x48, 0x4C, 0x3F] = [0x48, 0x3F] := by decide
/-- FreeFiringIsExactlyTheFairOne: a firing in every second move. -/
theorem test_witness_FreeFiringIsExactlyTheFairOne :
    ∃ f : Nat → Bool, f 0 = false ∧ ∀ n, ∃ m, n ≤ m ∧ f m = true :=
  ⟨fun n => n % 2 == 1, rfl, fun n => ⟨2 * n + 1, by omega, by simp⟩⟩
theorem test_witness_FireStepIsWeaklyFair : ∃ s : State, s.Inv ∧ s.FireEnabled ∧ s.nextMove.fire = false :=
  ⟨_, inv_waitAt_running, ⟨100, rfl⟩, rfl⟩
/-- EveryPulseEnds: a pulse whose timer runs, and one whose timer has expired. -/
theorem test_witness_EveryPulseEnds :
    (∃ s : State, s.Inv ∧ s.phase = .wait ∧ s.tmr = .running 100) ∧ (∃ s : State, s.Inv ∧ s.phase = .wait ∧ s.tmr = .expired) :=
  ⟨⟨_, inv_waitAt_running, rfl, rfl⟩, ⟨_, inv_waitAt_expired, rfl, rfl⟩⟩

end Sys2Proof.Tests
end

/-! SUPPORT. Proofs of the statements of 00_scope.md: the width of a port number, the table and its alphabet, what a step leaves of
the configuration, and which configurations a step refuses. -/

/-! ### The width of a port number (R5) -/

namespace Sys2Proof

/-- With fuel enough to reach a sufficient width, `leastWidth` answers the least sufficient one from `w` on. -/
theorem leastWidth_spec {n fuel w : Nat} (h : n ≤ 2 ^ (w + fuel)) :
    w ≤ leastWidth n fuel w ∧ n ≤ 2 ^ leastWidth n fuel w ∧ ∀ v, w ≤ v → n ≤ 2 ^ v → leastWidth n fuel w ≤ v := by
  induction fuel generalizing w with
  | zero => exact ⟨le_rfl, h, fun v hv _ => hv⟩
  | succ fuel ih =>
    rw [leastWidth]
    split
    next hw => exact ⟨le_rfl, hw, fun v hv _ => hv⟩
    next hw =>
      obtain ⟨hge, hfit, hleast⟩ := ih (w := w + 1) (by rwa [Nat.succ_add_eq_add_succ])
      refine ⟨by omega, hfit, fun v hv hn => hleast v ?_ hn⟩
      have hne : v ≠ w := fun he => hw (he ▸ hn)
      omega

/-- Settles O2: `nPort` more than 1 is width enough, so the fuel of `portW` suffices. -/
theorem portWidthIsLeast : Obligations.PortWidthIsLeast := fun _ =>
  leastWidth_spec (Nat.lt_two_pow_self.le.trans (Nat.pow_le_pow_right two_pos (Nat.le_add_left _ _)))

/-! ### The table and the selector alphabet (R6) -/

/-- R6 (b): `b` is a selector byte when there are `n` letters. -/
abbrev isSelectorByte (n : Nat) (b : Byte) : Prop :=
  (0x30 ≤ b.toNat ∧ b.toNat ≤ 0x39) ∨ (0x61 ≤ b.toNat ∧ b.toNat ≤ 0x60 + n)

theorem Config.mem_digitBytes (b : Byte) : b ∈ Config.digitBytes ↔ 0x30 ≤ b.toNat ∧ b.toNat ≤ 0x39 := by
  revert b
  decide +kernel

theorem Config.mem_letterBytes {n : Nat} (hn : n ≤ 26) (b : Byte) :
    b ∈ Config.letterBytes n ↔ 0x61 ≤ b.toNat ∧ b.toNat ≤ 0x60 + n := by
  simp only [Config.letterBytes, List.mem_map, List.mem_range]
  constructor
  · rintro ⟨k, hk, rfl⟩
    have hb : (BitVec.ofNat 8 (0x61 + k)).toNat = 0x61 + k := by
      rw [BitVec.toNat_ofNat]
      omega
    omega
  · rintro ⟨hlo, hhi⟩
    refine ⟨b.toNat - 0x61, by omega, BitVec.eq_of_toNat_eq ?_⟩
    rw [BitVec.toNat_ofNat]
    omega

/-- R6 (b): the list `alphabet` is the set the spec names. -/
theorem Config.mem_alphabet {n : Nat} (hn : n ≤ 26) (b : Byte) : b ∈ Config.alphabet n ↔ isSelectorByte n b := by
  rw [Config.alphabet, List.mem_append, Config.mem_digitBytes, Config.mem_letterBytes hn]

/-- R6 (b): in a well-formed configuration the table is defined exactly on the selector bytes. -/
theorem Config.lookup_isSome_of_wf {c : Config} (h : c.wf) (b : Byte) :
    (c.lookup b).isSome = true ↔ isSelectorByte c.nLetter b := by
  obtain ⟨hn, -, ht, -, -⟩ := c.wf_iff.1 h
  rw [c.lookup_isSome, ht, Config.mem_alphabet hn]

theorem Config.lookup_eq_none_of_wf {c : Config} (h : c.wf) (b : Byte) :
    c.lookup b = none ↔ ¬ isSelectorByte c.nLetter b := by
  rw [← Config.lookup_isSome_of_wf h, Option.not_isSome_iff_eq_none]

/-- R37: `'t'` is no selector with at most 19 letters. -/
theorem Config.lookup_t_eq_none {c : Config} (h : c.wf) : c.lookup 0x74 = none ↔ c.nLetter ≤ 19 := by
  rw [Config.lookup_eq_none_of_wf h]
  simp only [isSelectorByte, BitVec.reduceToNat]
  omega

/-- R37: `'u'` is no selector with at most 20 letters. -/
theorem Config.lookup_u_eq_none {c : Config} (h : c.wf) : c.lookup 0x75 = none ↔ c.nLetter ≤ 20 := by
  rw [Config.lookup_eq_none_of_wf h]
  simp only [isSelectorByte, BitVec.reduceToNat]
  omega

/-- A well-formed configuration meets the four clauses of R6. -/
theorem Config.allowed_of_wf {c : Config} (h : c.wf) : ConfigAllowed c.nLetter c.nPort c.lookup c.helpText := by
  obtain ⟨hn, hp, -, -, ha⟩ := c.wf_iff.1 h
  exact ⟨⟨hn, Nat.one_le_iff_ne_zero.2 hp⟩, Config.lookup_isSome_of_wf h,
    fun _ p hb => ⟨Config.lookup_port_lt h hb, Nat.le_of_lt_succ p.bit.isLt⟩, ha⟩

/-- The entries a table, given as a function, has at the bytes of a list. -/
def Config.entries (table : Byte → Option PinRef) (bytes : List Byte) : List (Byte × PinRef) :=
  bytes.filterMap fun b => (table b).map (Prod.mk b)

theorem Config.mem_entries {table : Byte → Option PinRef} {bytes : List Byte} {e : Byte × PinRef} :
    e ∈ Config.entries table bytes ↔ e.1 ∈ bytes ∧ table e.1 = some e.2 := by
  obtain ⟨k, p⟩ := e
  simp only [Config.entries, List.mem_filterMap, Option.map_eq_some_iff, Prod.mk.injEq]
  constructor
  · rintro ⟨b, hb, q, hq, rfl, rfl⟩
    exact ⟨hb, hq⟩
  · rintro ⟨hk, hp⟩
    exact ⟨k, hk, p, hp, rfl, rfl⟩

theorem Config.map_fst_entries {table : Byte → Option PinRef} {bytes : List Byte}
    (h : ∀ b ∈ bytes, (table b).isSome = true) : (Config.entries table bytes).map Prod.fst = bytes := by
  induction bytes with
  | nil => rfl
  | cons b bs ih =>
    obtain ⟨p, hp⟩ := Option.isSome_iff_exists.1 (h b List.mem_cons_self)
    simpa [Config.entries, hp] using ih fun b' hb' => h b' (List.mem_cons_of_mem _ hb')

/-- The configuration with a table given as a function (R5). -/
def Config.ofTable (n ports : Nat) (table : Byte → Option PinRef) (help : List Byte) : Config :=
  { nLetter := n, nPort := ports, pinTable := Config.entries table (Config.alphabet n), helpText := help }

/-- A table defined exactly on the alphabet is the lookup of the entries it has there. -/
theorem Config.lookup_ofTable {n ports : Nat} {table : Byte → Option PinRef} {help : List Byte}
    (h : ∀ b, (table b).isSome = true ↔ b ∈ Config.alphabet n) (b : Byte) :
    (Config.ofTable n ports table help).lookup b = table b := by
  have hdom : ((Config.ofTable n ports table help).lookup b).isSome = true ↔ (table b).isSome = true := by
    have hmap : (Config.ofTable n ports table help).pinTable.map Prod.fst = Config.alphabet n :=
      Config.map_fst_entries fun b' => (h b').2
    rw [Config.lookup_isSome, hmap, h b]
  cases hl : (Config.ofTable n ports table help).lookup b with
  | none =>
    rw [hl] at hdom
    exact (Option.not_isSome_iff_eq_none.1 fun ht => nomatch hdom.2 ht).symm
  | some p => exact (Config.mem_entries.1 (Config.mem_of_lookup hl)).2.symm

/-- Parameters that meet the four clauses of R6 make a well-formed configuration. -/
theorem Config.ofTable_wf {n ports : Nat} {table : Byte → Option PinRef} {help : List Byte}
    (h : ConfigAllowed n ports table help) : (Config.ofTable n ports table help).wf := by
  obtain ⟨⟨hn, hp⟩, hdom, hpin, ha⟩ := h
  refine (Config.wf_iff _).2 ⟨hn, Nat.one_le_iff_ne_zero.1 hp, Config.map_fst_entries fun b hb => ?_, fun e he => ?_, ha⟩
  · exact (hdom b).2 ((Config.mem_alphabet hn b).1 hb)
  · exact (hpin e.1 e.2 (Config.mem_entries.1 he).2).1

/-- Settles O1: a table given as a function is represented by its entries in alphabet order. -/
theorem configurationsAreThoseAllowed : Obligations.ConfigurationsAreThoseAllowed := by
  refine ⟨fun c => Config.allowed_of_wf, fun n ports table help h => ⟨Config.ofTable n ports table help,
    Config.ofTable_wf h, rfl, rfl, Config.lookup_ofTable fun b => ?_, rfl⟩⟩
  obtain ⟨⟨hn, -⟩, hdom, -, -⟩ := h
  exact (hdom b).trans (Config.mem_alphabet hn b).symm

end Sys2Proof

/-! ### The configuration is constant (R5) -/

namespace Sys2Proof.Machine

/-- No command writes the configuration. -/
theorem ExecCase.cfg_eq {i : Instr} {s t : State} (h : ExecCase i s t) : t.cfg = s.cfg := by
  cases h with
  | selected _ _ ht => rw [ht]; rfl
  | driven _ _ _ ht => rw [ht]; rfl
  | started _ _ _ _ _ ht => rw [ht]; rfl
  | helped _ ht => rw [ht]; rfl
  | unknown _ ht => rw [ht]; rfl

/-- No transition writes the configuration. -/
theorem StepCase.cfg_eq {s u : State} (h : StepCase s u) : u.cfg = s.cfg := by
  cases h with
  | reset _ hu => rw [hu, State.initialise_cfg]
  | idled _ _ _ hu => rw [hu, State.record_cfg]
  | took _ _ _ _ _ hx => exact hx.cfg_eq
  | held _ _ _ hu => rw [hu, State.record_cfg]
  | completed _ _ _ _ _ _ hu => rw [hu]; rfl

/-- Settles O44: neither the transition nor the environment's move writes the configuration. -/
theorem configurationNeverChanges : Obligations.ConfigurationNeverChanges := by
  intro s t h
  obtain ⟨-, u, rfl, hu⟩ := step_cases h
  exact hu.cfg_eq

end Sys2Proof.Machine

/-! ### The command a byte is exists in the configuration (R34, R36, R39) -/

namespace Sys2Proof

/-- The bytes of the selector commands of R53 and R54. -/
theorem selectorOf_isSome (b : Byte) : (selectorOf b).isSome = true ↔ isSelectorByte 26 b := by
  revert b
  decide +kernel

theorem selectorOf_ne_unk (b op : Byte) : selectorOf b ≠ some (.unk op) := by
  unfold selectorOf
  split <;> simp

/-- A selector command exists exactly when its byte is a selector byte (R53, R54). -/
theorem Instr.wf_of_selector {c : Config} {i : Instr} (h : selectorOf i.byte = some i) :
    i.wf c ↔ isSelectorByte c.nLetter i.byte := by
  cases i with
  | high | low | shortLow | shortHigh | longLow | longHigh | help => exact absurd h (by decide)
  | unk op => exact absurd h (selectorOf_ne_unk op op)
  | sel_0 | sel_1 | sel_2 | sel_3 | sel_4 | sel_5 | sel_6 | sel_7 | sel_8 | sel_9 =>
    exact iff_of_true trivial (.inl (by decide))
  | _ =>
    simp only [Instr.wf, Instr.byte, isSelectorByte, BitVec.reduceToNat]
    omega

/-- The byte of a table entry is that of a selector command. -/
theorem selectorOf_of_lookup {c : Config} (hc : c.wf) {b : Byte} {p : PinRef} (h : c.lookup b = some p) :
    ∃ i, selectorOf b = some i ∧ i.byte = b ∧ isSelectorByte c.nLetter b := by
  have hb : isSelectorByte c.nLetter b := (Config.lookup_isSome_of_wf hc b).1 (by rw [h]; rfl)
  obtain ⟨hn, -⟩ := c.wf_iff.1 hc
  obtain ⟨i, hi⟩ := Option.isSome_iff_exists.1 ((selectorOf_isSome b).2 (by omega))
  exact ⟨i, hi, byte_of_selectorOf hi, hb⟩

/-- A byte in the table is the selector command with that byte (R37). -/
theorem decodeByte_of_lookup_some {c : Config} {b : Byte} {p : PinRef} (h : c.lookup b = some p) :
    decodeByte c b = (selectorOf b).getD (.unk b) := by
  rw [decodeByte, classify_of_lookup_some h]

/-- A byte outside the table goes through the seven tests of R36. -/
theorem decodeByte_of_lookup_none {c : Config} {b : Byte} (h : c.lookup b = none) :
    decodeByte c b =
      if b = 0x48 then .high
      else if b = 0x4C then .low
      else if b = 0x74 then .shortLow
      else if b = 0x54 then .shortHigh
      else if b = 0x75 then .longLow
      else if b = 0x55 then .longHigh
      else if b = 0x3F then .help
      else .unk b := by
  rw [decodeByte, classify_of_lookup_none h]
  split_ifs <;> simp_all

/-- A byte has class UNKNOWN exactly when R64 says so. -/
theorem classify_eq_unknown_iff {c : Config} (hc : c.wf) (b : Byte) :
    classify c b = .unknown ↔ isUnknownByte c.nLetter b := by
  cases h : c.lookup b with
  | some p =>
    obtain ⟨-, -, -, hb⟩ := selectorOf_of_lookup hc h
    rw [classify_of_lookup_some h]
    exact ⟨nofun, fun hu => absurd hb (not_or.2 ⟨hu.1, hu.2.1⟩)⟩
  | none =>
    have hb : ¬ isSelectorByte c.nLetter b := (Config.lookup_eq_none_of_wf hc b).1 h
    rw [classify_of_lookup_none h, isUnknownByte, ← and_assoc, ← not_or, and_iff_right hb]
    split_ifs <;> simp_all

/-- Every byte decodes to a command the configuration has. -/
theorem decodeByte_wf {c : Config} (hc : c.wf) (b : Byte) : (decodeByte c b).wf c := by
  cases h : c.lookup b with
  | some p =>
    obtain ⟨i, hi, rfl, hb⟩ := selectorOf_of_lookup hc h
    rw [decodeByte_of_lookup_some h, hi]
    exact (Instr.wf_of_selector hi).2 hb
  | none =>
    have hu := classify_eq_unknown_iff hc b
    rw [classify_of_lookup_none h] at hu
    rw [decodeByte_of_lookup_none h]
    split_ifs at hu ⊢ with hH hL ht hT hu' hU hq
    · trivial
    · trivial
    · exact (Config.lookup_t_eq_none hc).1 (ht ▸ h)
    · trivial
    · exact (Config.lookup_u_eq_none hc).1 (hu' ▸ h)
    · trivial
    · trivial
    · exact hu.1 rfl

end Sys2Proof

/-! ### What a step refuses (R66) -/

namespace Sys2Proof.Machine

open Host

theorem andThen_ne_refused {o : Outcome State Fault Refusal} {f : State → Outcome State Fault Refusal} {r : Refusal}
    (ho : o ≠ .refused r) (hf : ∀ t, f t ≠ .refused r) : andThen o f ≠ .refused r := by
  cases o with
  | next t => exact hf t
  | fault q => exact nofun
  | refused q => exact ho

theorem perform_ne_refused (s : State) (e : Event) (r : Refusal) : perform s e ≠ .refused r := by
  cases e with
  | pinSet p l =>
    rw [perform]
    split <;> nofun
  | tmrStart ms =>
    rw [perform]
    split <;> nofun
  | _ => nofun

theorem performAll_ne_refused (s : State) (es : List Event) (r : Refusal) : performAll s es ≠ .refused r := by
  induction es generalizing s with
  | nil => exact nofun
  | cons e es ih => exact andThen_ne_refused (perform_ne_refused s e r) ih

/-- A transition of R43 is never refused: its events can only stop with a fault. -/
theorem transition_ne_refused (s : State) (es : List Event) (r : Refusal) : transition s es ≠ .refused r :=
  andThen_ne_refused (performAll_ne_refused s es r) fun _ => nofun

/-- Log 11: a command the configuration has is not refused. -/
theorem exec_ne_refused {s : State} (hc : s.cfg.wf) {i : Instr} (hi : i.wf s.cfg) (r : Refusal) :
    exec i s ≠ .refused r := by
  by_cases hsel : selectorOf i.byte = some i
  · obtain ⟨p, hp⟩ := Option.isSome_iff_exists.1
      ((Config.lookup_isSome_of_wf hc i.byte).2 ((Instr.wf_of_selector hsel).1 hi))
    rw [exec_selector hsel, select_next hp]
    exact nofun
  · cases i with
    | high | low | shortHigh | longHigh | help => exact transition_ne_refused _ _ r
    | shortLow =>
      rw [exec, execShortLow, unlessSelector_none ((Config.lookup_t_eq_none hc).2 hi)]
      exact transition_ne_refused _ _ r
    | longLow =>
      rw [exec, execLongLow, unlessSelector_none ((Config.lookup_u_eq_none hc).2 hi)]
      exact transition_ne_refused _ _ r
    | unk op =>
      rw [exec, unknown_next ((classify_eq_unknown_iff hc op).2 hi)]
      exact nofun
    | _ => exact absurd rfl hsel

theorem completePulse_ne_refused (s : State) (r : Refusal) : completePulse s ≠ .refused r := by
  unfold completePulse
  split
  · exact transition_ne_refused _ _ r
  · exact nofun

/-- One transition of R50 is refused only when the command of the byte taken is. -/
theorem dispatch_ne_refused {run : Byte → State → Outcome State Fault Refusal} {s : State} {r : Refusal}
    (hrun : ∀ b, run b s ≠ .refused r) : dispatch run s ≠ .refused r := by
  unfold dispatch
  split
  · split
    · exact transition_ne_refused _ _ r
    · exact hrun _
  · split
    · exact completePulse_ne_refused s r
    · exact transition_ne_refused _ _ r

/-- R66: in a well-formed configuration no step is refused. -/
theorem step_ne_refused {s : State} (hc : s.cfg.wf) (r : Refusal) : step s ≠ .refused r := by
  have hedge : clockEdge (fun b t => exec (decodeByte t.cfg b) t) s ≠ .refused r := by
    unfold clockEdge
    split
    · exact nofun
    · exact dispatch_ne_refused fun b => exec_ne_refused hc (decodeByte_wf hc b) r
  rw [step, cycle, hc]
  exact andThen_ne_refused hedge fun _ => nofun

/-- R6, U6: an ill-formed configuration is refused by the name of its defect. -/
theorem step_of_defect {s : State} {d : ConfigDefect} (h : s.cfg.defect? = some d) :
    step s = .refused (.illFormedConfig d) := by
  rw [step, cycle, h]

/-- Settles O30: every byte decodes to a command the configuration has, and such a command is not refused. -/
theorem onlyIllFormedConfigurationsAreRefused : Obligations.OnlyIllFormedConfigurationsAreRefused := by
  refine ⟨fun s d => step_of_defect, fun s r h => ?_⟩
  cases hd : s.cfg.defect? with
  | none => exact absurd h (step_ne_refused hd r)
  | some d =>
    rw [step_of_defect hd] at h
    exact ⟨d, rfl, (Outcome.refused.inj h).symm⟩

end Sys2Proof.Machine

/-! SUPPORT. Proofs of the statements of 10_state.md: the invariants of R13 and the laws of the trace after reset and after a step,
what changes the selection and the phase, the rules of the output ports, and that the host can read neither the selection nor a
pin. -/

/-! ### The command of a byte taken (R34, R36) -/

namespace Sys2Proof

/-- R34: whatever the configuration, the command a byte decodes to has that byte. -/
@[simp] theorem decodeByte_byte (c : Config) (b : Byte) : (decodeByte c b).byte = b := by
  cases h : c.lookup b with
  | some p =>
    rw [decodeByte_of_lookup_some h]
    cases hi : selectorOf b with
    | some i => exact byte_of_selectorOf hi
    | none => rfl
  | none =>
    rw [decodeByte_of_lookup_none h]
    split_ifs <;> simp only [Instr.byte, *]

/-- `'T'` is no selector (R37). -/
theorem Config.lookup_T_eq_none {c : Config} (h : c.wf) : c.lookup 0x54 = none :=
  (Config.lookup_eq_none_of_wf h _).2 (by simp [isSelectorByte])

/-- `'U'` is no selector (R37). -/
theorem Config.lookup_U_eq_none {c : Config} (h : c.wf) : c.lookup 0x55 = none :=
  (Config.lookup_eq_none_of_wf h _).2 (by simp [isSelectorByte])

end Sys2Proof

namespace Sys2Proof.Machine

/-- R58 to R61: `i` is a pulse command of the configuration, with first level `a` and duration `ms`. -/
def StartsPulse (c : Config) (i : Instr) (a : Level) (ms : Nat) : Prop :=
  i = .shortLow ∧ a = .low ∧ ms = 100 ∧ c.lookup 0x74 = none ∨ i = .shortHigh ∧ a = .high ∧ ms = 100 ∨
    i = .longLow ∧ a = .low ∧ ms = 1000 ∧ c.lookup 0x75 = none ∨ i = .longHigh ∧ a = .high ∧ ms = 1000

theorem StartsPulse.ms_eq {c : Config} {i : Instr} {a : Level} {ms : Nat} (h : StartsPulse c i a ms) :
    ms = 100 ∨ ms = 1000 := by
  obtain ⟨-, -, hm, -⟩ | ⟨-, -, hm⟩ | ⟨-, -, hm, -⟩ | ⟨-, -, hm⟩ := h
  · exact .inl hm
  · exact .inl hm
  · exact .inr hm
  · exact .inr hm

/-- The class of a pulse command's byte has the duration the command starts the timer with (R35, R36). -/
theorem StartsPulse.duration_eq {c : Config} {i : Instr} {a : Level} {ms : Nat} (hc : c.wf) (h : StartsPulse c i a ms) :
    duration (classify c i.byte) = some ms := by
  obtain ⟨rfl, -, rfl, hl⟩ | ⟨rfl, -, rfl⟩ | ⟨rfl, -, rfl, hl⟩ | ⟨rfl, -, rfl⟩ := h
  · rw [Instr.byte, classify_of_lookup_none hl]
    rfl
  · rw [Instr.byte, classify_of_lookup_none (Config.lookup_T_eq_none hc)]
    rfl
  · rw [Instr.byte, classify_of_lookup_none hl]
    rfl
  · rw [Instr.byte, classify_of_lookup_none (Config.lookup_U_eq_none hc)]
    rfl

/-- The classes with a duration are those with a second level (R35). -/
theorem secondLevel_isSome_iff (k : Command) : (secondLevel k).isSome = true ↔ (duration k).isSome = true := by
  cases k <;> exact Iff.rfl

/-! ### The state after reset (R18) -/

/-- Settles O29: the fields of `State.resetOf`. -/
theorem resetState : Obligations.ResetState :=
  fun _ => ⟨rfl, rfl, rfl, rfl, fun _ => rfl, rfl, rfl⟩

/-- Settles O31: port 0 exists in a well-formed configuration, and nothing has been driven or started. -/
theorem invariantHoldsAfterReset : Obligations.InvariantHoldsAfterReset := fun c hc =>
  { cfgWf := hc
    portExists := Nat.pos_of_ne_zero (c.wf_iff.1 hc).2.1
    selFromTable := .inl rfl
    waitIsPulse := nofun
    timerOutstanding := ⟨nofun, fun h => absurd rfl h⟩
    timerDuration := nofun
    pinsCanonical := reset_pinlvl_wf c
    pinsExist := nofun }

/-- Settles O39: the trace is empty after reset. -/
theorem traceLawsHoldAfterReset : Obligations.TraceLawsHoldAfterReset :=
  fun _ => ⟨fun _ => rfl, rfl, rfl, rfl, Nat.le_refl 0⟩

/-! ### Each update of the state keeps the invariants (R13) -/

theorem State.Inv.record {s : State} (h : s.Inv) (c : Cycle) : (s.record c).Inv := { h with }

theorem State.Inv.dropByte {s : State} (h : s.Inv) : s.dropByte.Inv := { h with }

/-- R13 (a), (b): a pin of the table is on a port that exists. -/
theorem State.Inv.setSel {s : State} (h : s.Inv) {b : Byte} {p : PinRef} (hp : s.cfg.lookup b = some p) :
    (s.setSel p).Inv :=
  { h with portExists := Config.lookup_port_lt h.cfgWf hp, selFromTable := .inr ⟨b, hp⟩ }

/-- R21: a pin of a port that exists has its address in pin space. -/
theorem State.Inv.drive {s : State} (h : s.Inv) {p : PinRef} (hp : p.port < s.cfg.nPort) (l : Level) :
    (s.drive p l).Inv :=
  { h with
    pinsCanonical := write_wf h.pinsCanonical p.key l
    pinsExist := fun e he => by
      obtain rfl | he := mem_write he
      · exact (key_lt_iff p _).2 hp
      · exact h.pinsExist e he }

/-- R57: the phase and the timer go together, with the duration of the byte that `CUR` takes. -/
theorem State.Inv.start {s : State} (h : s.Inv) {b : Byte} {ms : Nat} (hd : duration (classify s.cfg b) = some ms) :
    ((s.beginWait b).setTimer (.running ms)).Inv :=
  { h with
    waitIsPulse := fun _ => (secondLevel_isSome_iff _).2 (Option.isSome_of_eq_some hd)
    timerOutstanding := iff_of_true rfl nofun
    timerDuration := fun _ ht => Timer.running.inj ht ▸ hd }

/-- R62: the phase and the timer go together. -/
theorem State.Inv.finish {s : State} (h : s.Inv) : (s.endWait.setTimer .idle).Inv :=
  { h with
    waitIsPulse := nofun
    timerOutstanding := ⟨nofun, fun ht => absurd rfl ht⟩
    timerDuration := nofun }

/-- R80: the cells and the timer are as after power-up, the pins as they were. -/
theorem State.Inv.initialise {s : State} (h : s.Inv) : s.initialise.Inv :=
  { invariantHoldsAfterReset s.cfg h.cfgWf with pinsCanonical := h.pinsCanonical, pinsExist := h.pinsExist }

/-- R73: a fire step neither starts a request nor ends one. -/
theorem Timer.fire_eq_idle (t : Timer) : t.fire = .idle ↔ t = .idle := by
  cases t <;> simp [Timer.fire]

theorem Timer.fire_ne_running (t : Timer) (ms : Nat) : t.fire ≠ .running ms := by
  cases t <;> exact nofun

theorem envStep_tmr_eq_idle (s : State) : s.envStep.tmr = .idle ↔ s.tmr = .idle := by
  rw [State.envStep_tmr]
  split
  · exact s.tmr.fire_eq_idle
  · rfl

theorem tmr_of_envStep_running {s : State} {ms : Nat} (h : s.envStep.tmr = .running ms) : s.tmr = .running ms := by
  rw [State.envStep_tmr] at h
  split at h
  · exact absurd h (s.tmr.fire_ne_running ms)
  · exact h

theorem State.Inv.envStep {s : State} (h : s.Inv) : s.envStep.Inv :=
  { h with
    timerOutstanding := h.timerOutstanding.trans (not_congr (envStep_tmr_eq_idle s)).symm
    timerDuration := fun ms ht => h.timerDuration ms (tmr_of_envStep_running ht) }

/-! ### Every step keeps the invariants (R13) -/

theorem ExecCase.inv {i : Instr} {s t : State} (h : ExecCase i s t) (hs : s.Inv) : t.Inv := by
  cases h with
  | selected p hp ht => exact ht ▸ (hs.setSel hp).dropByte.record _
  | driven l _ hp ht => exact ht ▸ (hs.dropByte.drive hp l).record _
  | started a ms hi hp _ ht =>
    have hd : duration (classify s.cfg i.byte) = some ms := StartsPulse.duration_eq hs.cfgWf hi
    exact ht ▸ ((hs.dropByte.drive hp a).start hd).record _
  | helped _ ht => exact ht ▸ hs.dropByte.record _
  | unknown _ ht => exact ht ▸ hs.dropByte.record _

theorem StepCase.inv {s u : State} (h : StepCase s u) (hs : s.Inv) : u.Inv := by
  cases h with
  | reset _ hu => exact hu ▸ hs.initialise
  | idled _ _ _ hu => exact hu ▸ hs.record _
  | took _ _ _ _ _ hx => exact hx.inv hs
  | held _ _ _ hu => exact hu ▸ hs.record _
  | completed l _ _ _ _ hp hu => exact hu ▸ (hs.finish.drive hp l).record _

/-- Settles O32: the transition keeps the invariants, and so does the environment's move. -/
theorem stepKeepsInvariant : Obligations.StepKeepsInvariant := by
  intro s t hs h
  obtain ⟨-, u, rfl, hu⟩ := step_cases h
  exact (hu.inv hs).envStep

/-! ### What changes the selection (R10, R13 (e)) -/

theorem ExecCase.sel_cases {i : Instr} {s t : State} (h : ExecCase i s t) :
    t.sel = s.sel ∨ s.cfg.lookup i.byte = some t.sel := by
  cases h with
  | selected p hp ht => exact .inr (by rw [ht]; exact hp)
  | driven _ _ _ ht => exact .inl (by rw [ht]; rfl)
  | started _ _ _ _ _ ht => exact .inl (by rw [ht]; rfl)
  | helped _ ht => exact .inl (by rw [ht]; rfl)
  | unknown _ ht => exact .inl (by rw [ht]; rfl)

/-- Settles O42: of the transitions, only a reset cycle and a selector command write `SEL`. -/
theorem onlySelectorsChangeTheSelection : Obligations.OnlySelectorsChangeTheSelection := by
  intro s t h hne
  obtain ⟨-, u, rfl, hu⟩ := step_cases h
  rw [State.envStep_sel] at hne ⊢
  cases hu with
  | reset hr hu => exact .inl ⟨hr, hu ▸ rfl⟩
  | idled _ _ _ hu => exact absurd (hu ▸ rfl) hne
  | took b rest hr hp hq hx =>
    have hl := hx.sel_cases.resolve_left hne
    rw [decodeByte_byte] at hl
    exact .inr ⟨hr, hp, b, rest, hq, hl⟩
  | held _ _ _ hu => exact absurd (hu ▸ rfl) hne
  | completed _ _ _ _ _ _ hu => exact absurd (hu ▸ rfl) hne

/-! ### What changes the phase (R12) -/

@[simp] theorem State.record_out (s : State) (es : List Event) : (s.record (.ran es)).out = es := rfl

@[simp] theorem State.envStep_out (s : State) : s.envStep.out = s.out := rfl

/-- R57: of the commands, only a pulse leaves the phase it found, and it starts the timer. -/
theorem ExecCase.pulse_of_phase_ne {i : Instr} {s t : State} (h : ExecCase i s t) (hc : s.cfg.wf)
    (hp : t.phase ≠ s.phase) :
    ∃ ms, duration (classify s.cfg i.byte) = some ms ∧ t.cur = i.byte ∧ Event.tmrStart ms ∈ t.out := by
  cases h with
  | selected _ _ ht => exact absurd (ht ▸ rfl) hp
  | driven _ _ _ ht => exact absurd (ht ▸ rfl) hp
  | started a ms hi _ _ ht => exact ⟨ms, StartsPulse.duration_eq hc hi, by rw [ht]; rfl, by rw [ht]; simp⟩
  | helped _ ht => exact absurd (ht ▸ rfl) hp
  | unknown _ ht => exact absurd (ht ▸ rfl) hp

/-- R12, the way into `WAIT`. -/
theorem StepCase.start_of_wait {s u : State} (h : StepCase s u) (hc : s.cfg.wf) (hs : s.phase = .idle)
    (hu : u.phase = .wait) :
    ∃ b rest ms, s.pending = b :: rest ∧ duration (classify s.cfg b) = some ms ∧ u.cur = b ∧
      Event.tmrStart ms ∈ u.out := by
  have hne : u.phase ≠ s.phase := by rw [hu, hs]; exact nofun
  cases h with
  | reset _ he => exact absurd (by rw [he, hs]; rfl) hne
  | idled _ _ _ he => exact absurd (he ▸ rfl) hne
  | took b rest _ _ hq hx =>
    obtain ⟨ms, hd, hcur, hm⟩ := hx.pulse_of_phase_ne hc hne
    rw [decodeByte_byte] at hd hcur
    exact ⟨b, rest, ms, hq, hd, hcur, hm⟩
  | held _ hp _ _ => exact absurd (hs.symm.trans hp) nofun
  | completed _ _ hp _ _ _ _ => exact absurd (hs.symm.trans hp) nofun

/-- R12, the way out of `WAIT` without a reset: the transition ends the pulse exactly when the timer has expired. -/
theorem StepCase.end_of_wait {s u : State} (h : StepCase s u) (hr : s.rst = false) (hs : s.phase = .wait) :
    (s.tmr ≠ .expired ∧ u.phase = .wait) ∨ (s.tmr = .expired ∧ u.phase = .idle ∧ Event.tmrDone ∈ u.out) := by
  cases h with
  | reset hr' _ => exact absurd (hr.symm.trans hr') nofun
  | idled _ hp _ _ => exact absurd (hs.symm.trans hp) nofun
  | took _ _ _ hp _ _ => exact absurd (hs.symm.trans hp) nofun
  | held _ _ hm he => exact .inl ⟨hm, by rw [he]; exact hs⟩
  | completed _ _ _ hm _ _ he => exact .inr ⟨hm, by rw [he]; rfl, by rw [he]; simp⟩

/-- Settles O43: `WAIT` is entered by a pulse's starting transition and left by its completing one. -/
theorem onlyPulsesChangeThePhase : Obligations.OnlyPulsesChangeThePhase := by
  intro s t h hr
  obtain ⟨hc, u, rfl, hu⟩ := step_cases h
  simp only [State.envStep_phase, State.envStep_cur, State.envStep_out]
  refine ⟨hu.start_of_wait hc, fun hs hi => ?_, fun hs hm => ?_⟩
  · obtain ⟨-, hw⟩ | ⟨hm, -, hd⟩ := hu.end_of_wait hr hs
    · exact absurd (hw.symm.trans hi) nofun
    · exact ⟨hm, hd⟩
  · obtain ⟨hm', -⟩ | ⟨-, hi, -⟩ := hu.end_of_wait hr hs
    · exact absurd hm hm'
    · exact hi

/-! ### The output ports (R16, R72) -/

/-- The events of one cycle (R28, R52 (b)): which lists a step from `s` can put on the output ports. -/
inductive CycleEvents (s : State) : List Event → Prop where
  /-- R48, R80: a hold, or a reset cycle. -/
  | silent : CycleEvents s []
  /-- R44: nothing to do. -/
  | polled : CycleEvents s [.poll]
  /-- R53, R54, R64: a byte answered without a pin write. -/
  | answered (b e : Byte) : CycleEvents s ([.rxTake b] ++ echo e s.txr ++ [.poll])
  /-- R55, R56: a byte answered after a pin write. -/
  | drove (b e : Byte) (l : Level) : CycleEvents s ([.rxTake b, .pinSet s.sel l] ++ echo e s.txr ++ [.poll])
  /-- R57: a pulse's start. -/
  | started (b : Byte) (a : Level) (ms : Nat) (hm : ms = 100 ∨ ms = 1000) :
      CycleEvents s [.rxTake b, .pinSet s.sel a, .tmrStart ms]
  /-- R63: the help text. -/
  | helped (b : Byte) (text : List Byte) : CycleEvents s ([.rxTake b] ++ sendText text s.txr ++ [.poll])
  /-- R62: a pulse's completion. -/
  | completed (e : Byte) (l : Level) : CycleEvents s ([.tmrDone, .pinSet s.sel l] ++ echo e s.txr ++ [.poll])

theorem ExecCase.out {i : Instr} {s t : State} (h : ExecCase i s t) : CycleEvents s t.out := by
  cases h with
  | selected _ _ ht => exact ht ▸ .answered _ _
  | driven l _ _ ht => exact ht ▸ .drove _ _ l
  | started a ms hi _ _ ht => exact ht ▸ .started _ a ms (StartsPulse.ms_eq hi)
  | helped _ ht => exact ht ▸ .helped _ _
  | unknown _ ht => exact ht ▸ .answered _ _

theorem StepCase.out {s u : State} (h : StepCase s u) : CycleEvents s u.out := by
  cases h with
  | reset _ hu => exact hu ▸ .silent
  | idled _ _ _ hu => exact hu ▸ .polled
  | took _ _ _ _ _ hx => exact hx.out
  | held _ _ _ hu => exact hu ▸ .silent
  | completed l _ _ _ _ _ hu => exact hu ▸ .completed _ l

theorem step_out {s t : State} (h : step s = .next t) : CycleEvents s t.out := by
  obtain ⟨-, u, rfl, hu⟩ := step_cases h
  exact hu.out

/-- R16, R72: the rules of the transmit and timer ports for the events of one cycle. -/
def PortsLawful (txReady : Bool) (es : List Event) : Prop :=
  ¬ ((txPort es).isSome = true ∧ txHelpPort es = true) ∧
  (txReady = false → txPort es = none ∧ txHelpPort es = false) ∧
  (∀ v, tmrPort es = some v → v = 100#10 ∨ v = 1000#10)

theorem txPort_append (xs ys : List Event) : txPort (xs ++ ys) = (txPort xs).or (txPort ys) := by
  induction xs with
  | nil => rfl
  | cons e es ih =>
    cases e with
    | txByte b => rfl
    | _ => exact ih

theorem txHelpPort_append (xs ys : List Event) : txHelpPort (xs ++ ys) = (txHelpPort xs || txHelpPort ys) := by
  induction xs with
  | nil => rfl
  | cons e es ih =>
    cases e with
    | txString text => rfl
    | _ => exact ih

theorem tmrPort_append (xs ys : List Event) : tmrPort (xs ++ ys) = (tmrPort xs).or (tmrPort ys) := by
  induction xs with
  | nil => rfl
  | cons e es ih =>
    cases e with
    | tmrStart ms => rfl
    | _ => exact ih

/-- An attempt to transmit, `es`, made after events that neither transmit nor start the timer and before a `Poll`, keeps the rules
when it keeps them alone. -/
theorem PortsLawful.attempt {r : Bool} {pre es : List Event} (h : PortsLawful r es) (ht : txPort pre = none)
    (hh : txHelpPort pre = false) (hm : tmrPort pre = none) : PortsLawful r (pre ++ es ++ [.poll]) := by
  simpa only [PortsLawful, txPort_append, txHelpPort_append, tmrPort_append, ht, hh, hm, txPort, txHelpPort, tmrPort,
    Option.none_or, Option.or_none, Bool.false_or, Bool.or_false] using h

/-- R46, R68: an echo attempt uses `tx_valid` alone, and only when the transmit path is ready. -/
theorem portsLawful_echo (e : Byte) (r : Bool) : PortsLawful r (echo e r) := by
  cases r <;> simp [PortsLawful, echo, txPort, txHelpPort, tmrPort]

/-- R63: the help text uses `tx_help` alone, and only when the transmit path is ready. -/
theorem portsLawful_sendText (text : List Byte) (r : Bool) : PortsLawful r (sendText text r) := by
  cases r <;> simp [PortsLawful, sendText, txPort, txHelpPort, tmrPort]

theorem CycleEvents.portsLawful {s : State} {es : List Event} (h : CycleEvents s es) : PortsLawful s.txReady es := by
  cases h with
  | silent => exact ⟨nofun, fun _ => ⟨rfl, rfl⟩, nofun⟩
  | polled => exact ⟨nofun, fun _ => ⟨rfl, rfl⟩, nofun⟩
  | answered b e => exact (portsLawful_echo e s.txReady).attempt rfl rfl rfl
  | drove b e l => exact (portsLawful_echo e s.txReady).attempt rfl rfl rfl
  | started b a ms hm =>
    refine ⟨nofun, fun _ => ⟨rfl, rfl⟩, fun v hv => ?_⟩
    obtain rfl := Option.some.inj hv
    obtain rfl | rfl := hm
    · exact .inl rfl
    · exact .inr rfl
  | helped b text => exact (portsLawful_sendText text s.txReady).attempt rfl rfl rfl
  | completed e l => exact (portsLawful_echo e s.txReady).attempt rfl rfl rfl

/-- Settles O41: each list of events a cycle can have keeps the rules. -/
theorem outputPortsObeyTheirRules : Obligations.OutputPortsObeyTheirRules :=
  fun _ _ h => (step_out h).portsLawful

/-! ### Updates that the host cannot tell apart (R15) -/

theorem SameToHost.txr {s u : State} (h : SameToHost s u) : s.txr = u.txr := h.txReady

theorem SameToHost.setSel {s u : State} (h : SameToHost s u) (p q : PinRef) : SameToHost (s.setSel p) (u.setSel q) :=
  { h with }

theorem SameToHost.drive {s u : State} (h : SameToHost s u) (p q : PinRef) (l m : Level) :
    SameToHost (s.drive p l) (u.drive q m) :=
  { h with }

theorem SameToHost.beginWait {s u : State} (h : SameToHost s u) (b : Byte) : SameToHost (s.beginWait b) (u.beginWait b) :=
  { h with cur := rfl, phase := rfl }

theorem SameToHost.endWait {s u : State} (h : SameToHost s u) : SameToHost s.endWait u.endWait :=
  { h with phase := rfl }

theorem SameToHost.setTimer {s u : State} (h : SameToHost s u) (t : Timer) : SameToHost (s.setTimer t) (u.setTimer t) :=
  { h with tmr := rfl }

theorem SameToHost.dropByte {s u : State} (h : SameToHost s u) : SameToHost s.dropByte u.dropByte :=
  { h with pending := congrArg List.tail h.pending }

/-- Two cycles that transmit the same bytes look the same, whatever pins they write. -/
theorem SameToHost.record {s u : State} (h : SameToHost s u) {es fs : List Event} (he : transmittedBy es = transmittedBy fs) :
    SameToHost (s.record (.ran es)) (u.record (.ran fs)) :=
  { h with sent := congrArg₂ (· ++ ·) h.sent he }

theorem SameToHost.initialise {s u : State} (h : SameToHost s u) : SameToHost s.initialise u.initialise :=
  { h with cur := rfl, phase := rfl, tmr := rfl }

theorem SameToHost.nextMove {s u : State} (h : SameToHost s u) : s.nextMove = u.nextMove := by
  rw [State.nextMove, State.nextMove, h.env, h.draws]

theorem SameToHost.envStep {s u : State} (h : SameToHost s u) : SameToHost s.envStep u.envStep where
  cfg := h.cfg
  cur := h.cur
  phase := h.phase
  tmr := by rw [State.envStep_tmr, State.envStep_tmr, h.nextMove, h.tmr]
  pending := by rw [State.envStep_pending, State.envStep_pending, h.nextMove, h.pending]
  txReady := congrArg EnvMove.txReady h.nextMove
  rst := congrArg EnvMove.rst h.nextMove
  sent := h.sent
  env := congrArg List.tail h.env
  draws := congrArg (· + 1) h.draws

/-! ### A step that the host cannot tell apart from another (R15, R89) -/

open Host

/-- When the first outcome is a next state, so is the second, and the host sees the same in both. -/
def NextSameToHost (o o' : Outcome State Fault Refusal) : Prop :=
  ∀ t, o = .next t → ∃ v, o' = .next v ∧ SameToHost t v

theorem NextSameToHost.next {t v : State} (h : SameToHost t v) : NextSameToHost (.next t) (.next v) :=
  fun _ ht => ⟨v, rfl, Outcome.next.inj ht ▸ h⟩

theorem NextSameToHost.andThen {o o' : Outcome State Fault Refusal} {f g : State → Outcome State Fault Refusal}
    (h : NextSameToHost o o') (hf : ∀ t v, SameToHost t v → NextSameToHost (f t) (g v)) :
    NextSameToHost (andThen o f) (andThen o' g) := by
  intro t ht
  obtain ⟨x, hx, hft⟩ := andThen_eq_next ht
  obtain ⟨y, rfl, hxy⟩ := h x hx
  exact hf x y hxy t hft

section
variable {s u : State} (h : SameToHost s u)
include h

theorem select_sameToHost (b : Byte) : NextSameToHost (select b s) (select b u) := by
  intro t ht
  obtain ⟨p, hp, rfl⟩ := select_cases ht
  exact ⟨_, select_next (h.cfg ▸ hp), (h.setSel p p).dropByte.record (by rw [h.txr])⟩

theorem setLevel_sameToHost (b : Byte) (l : Level) (hu : u.sel.port < u.cfg.nPort) :
    NextSameToHost (setLevel b l s) (setLevel b l u) := by
  intro t ht
  obtain ⟨-, rfl⟩ := setLevel_cases ht
  exact ⟨_, setLevel_next hu, (h.dropByte.drive s.sel u.sel l l).record (by rw [h.txr]; rfl)⟩

theorem startPulse_sameToHost (b : Byte) (a : Level) (ms : Nat) (hu : u.sel.port < u.cfg.nPort) :
    NextSameToHost (startPulse b a ms s) (startPulse b a ms u) := by
  intro t ht
  obtain ⟨-, hm, rfl⟩ := startPulse_cases ht
  exact ⟨_, startPulse_next hu (h.tmr ▸ hm), (((h.beginWait b).dropByte.drive s.sel u.sel a a).setTimer _).record rfl⟩

theorem execHelp_sameToHost : NextSameToHost (execHelp s) (execHelp u) := by
  rw [sendHelp_next, sendHelp_next]
  exact .next (h.dropByte.record (by rw [h.txr, h.cfg]))

theorem execUnk_sameToHost (op : Byte) : NextSameToHost (execUnk op s) (execUnk op u) := by
  intro t ht
  obtain ⟨hc, rfl⟩ := execUnk_cases ht
  exact ⟨_, unknown_next (h.cfg ▸ hc), h.dropByte.record (by rw [h.txr])⟩

theorem completePulse_sameToHost (hu : u.sel.port < u.cfg.nPort) :
    NextSameToHost (completePulse s) (completePulse u) := by
  intro t ht
  obtain ⟨l, hl, -, rfl⟩ := completePulse_cases ht
  rw [h.cfg, h.cur] at hl
  exact ⟨_, completePulse_next hl hu,
    ((h.endWait.setTimer .idle).drive s.sel u.sel l l).record (by rw [h.txr, h.cur]; rfl)⟩

/-- No command lets the host tell the two states apart. -/
theorem exec_sameToHost (i : Instr) (hu : u.sel.port < u.cfg.nPort) : NextSameToHost (exec i s) (exec i u) := by
  cases exec_shape i with
  | selection b he => rw [he, he]; exact select_sameToHost h b
  | level b l he => rw [he, he]; exact setLevel_sameToHost h b l hu
  | pulse b a ms he => rw [he, he]; exact startPulse_sameToHost h b a ms hu
  | lowerPulse b a ms he =>
    rw [he, he]
    intro t ht
    obtain ⟨hl, hs⟩ := unlessSelector_cases ht
    rw [unlessSelector_none (h.cfg ▸ hl)]
    exact startPulse_sameToHost h b a ms hu t hs
  | help he => rw [he, he]; exact execHelp_sameToHost h
  | unknown op he => rw [he, he]; exact execUnk_sameToHost h op

theorem dispatch_sameToHost (hu : u.sel.port < u.cfg.nPort) {run : Byte → State → Outcome State Fault Refusal}
    (hrun : ∀ b, NextSameToHost (run b s) (run b u)) : NextSameToHost (dispatch run s) (dispatch run u) := by
  have hrx : s.rx = u.rx := congrArg List.head? h.pending
  have hdone : s.done = u.done := congrArg (fun t => decide (t = Timer.expired)) h.tmr
  rw [dispatch, dispatch, h.phase, hrx, hdone]
  split
  · split
    · exact .next (h.record rfl)
    · exact hrun _
  · split
    · exact completePulse_sameToHost h hu
    · exact .next (h.record rfl)

theorem clockEdge_sameToHost (hu : u.sel.port < u.cfg.nPort) {run : Byte → State → Outcome State Fault Refusal}
    (hrun : ∀ b, NextSameToHost (run b s) (run b u)) : NextSameToHost (clockEdge run s) (clockEdge run u) := by
  rw [clockEdge, clockEdge, h.rst]
  split
  · exact .next h.initialise
  · exact dispatch_sameToHost h hu hrun

theorem step_sameToHost (hu : u.sel.port < u.cfg.nPort) : NextSameToHost (step s) (step u) := by
  rw [step, step, cycle, cycle, h.cfg]
  split
  · exact nofun
  · refine (clockEdge_sameToHost h hu fun b => ?_).andThen fun t v htv => .next htv.envStep
    rw [h.cfg]
    exact exec_sameToHost h (decodeByte u.cfg b) hu

end

/-- Settles O49: from each pair of states that look the same, every transition and the environment's move lead to such a pair; the
one thing asked of the second state is that its selected port exists. -/
theorem selectionAndPinsCannotBeRead : Obligations.SelectionAndPinsCannotBeRead :=
  fun _ _ t _ hu h ht => step_sameToHost h hu.portExists t ht

end Sys2Proof.Machine

/-! SUPPORT. Proofs of the statements of 20_memory.md: a pin write and its frame, pin space as the trace tells it, and the order in
which bytes leave the receive stream. -/

namespace Sys2Proof.Machine

/-! ### One pin write (R21, R76) -/

theorem State.level_drive_same (s : State) (p : PinRef) (l : Level) : (s.drive p l).level p = some l :=
  read_write_same s.pinlvl p.key l

theorem State.level_drive_other (s : State) {p q : PinRef} (l : Level) (h : q ≠ p) :
    (s.drive p l).level q = s.level q :=
  read_write_other s.pinlvl l fun hk => h (key_injective hk)

/-- Settles O22: the next state is the one with the pin driven, and an address of pin space is the address of one pin. -/
theorem pinWriteChangesOnePin : Obligations.PinWriteChangesOnePin := fun s p l hp =>
  ⟨s.drive p l, perform_pinSet l hp, s.level_drive_same p l, fun _ hq => s.level_drive_other l hq, rfl⟩

/-! ### The pin writes of a transition (R21, R28) -/

/-- Driving a pin is, for every pin, what the trace reads off the `PinSet`. -/
theorem State.level_drive (s : State) (p q : PinRef) (l : Level) :
    (s.drive p l).level q = levelAfter q (s.level q) [.pinSet p l] := by
  simp only [levelAfter]
  split
  · next h => rw [← h, s.level_drive_same]
  · next h => exact s.level_drive_other l (Ne.symm h)

theorem levelAfter_append (p : PinRef) (before : Option Level) (xs ys : List Event) :
    levelAfter p before (xs ++ ys) = levelAfter p (levelAfter p before xs) ys := by
  induction xs generalizing before with
  | nil => rfl
  | cons e es ih =>
    cases e with
    | pinSet q l => exact ih _
    | _ => exact ih before

/-- A reply attempt, `es`, that writes no pin, and the `Poll` after it leave every pin as the events before them did. -/
theorem levelAfter_attempt {p : PinRef} {es : List Event} (h : ∀ before, levelAfter p before es = before)
    (before : Option Level) (pre : List Event) :
    levelAfter p before (pre ++ es ++ [.poll]) = levelAfter p before pre := by
  rw [levelAfter_append, levelAfter_append, h]
  rfl

theorem levelAfter_echo (p : PinRef) (e : Byte) (r : Bool) (before : Option Level) :
    levelAfter p before (echo e r) = before := by
  cases r <;> rfl

theorem levelAfter_sendText (p : PinRef) (text : List Byte) (r : Bool) (before : Option Level) :
    levelAfter p before (sendText text r) = before := by
  cases r <;> rfl

/-- A command leaves each pin at the level that its events give. -/
theorem ExecCase.level_eq {i : Instr} {s t : State} (h : ExecCase i s t) (p : PinRef) :
    t.level p = levelAfter p (s.level p) t.out := by
  cases h with
  | selected _ _ ht => rw [ht, State.record_out, levelAfter_attempt (levelAfter_echo p _ _)]; rfl
  | driven l _ _ ht =>
    rw [ht, State.record_out, levelAfter_attempt (levelAfter_echo p _ _)]
    exact s.level_drive s.sel p l
  | started a _ _ _ _ ht => rw [ht]; exact s.level_drive s.sel p a
  | helped _ ht => rw [ht, State.record_out, levelAfter_attempt (levelAfter_sendText p _ _)]; rfl
  | unknown _ ht => rw [ht, State.record_out, levelAfter_attempt (levelAfter_echo p _ _)]; rfl

/-- R80: a transition, and a reset cycle too, leaves each pin at the level that its events give. -/
theorem StepCase.level_eq {s u : State} (h : StepCase s u) (p : PinRef) :
    u.level p = levelAfter p (s.level p) u.out := by
  cases h with
  | reset _ hu => rw [hu]; rfl
  | idled _ _ _ hu => rw [hu]; rfl
  | took _ _ _ _ _ hx => exact hx.level_eq p
  | held _ _ _ hu => rw [hu]; rfl
  | completed l _ _ _ _ _ hu =>
    rw [hu, State.record_out, levelAfter_attempt (levelAfter_echo p _ _)]
    exact s.level_drive s.sel p l

/-! ### The trace grows by the cycle of a step (R51, R80) -/

theorem ExecCase.trace_eq {i : Instr} {s t : State} (h : ExecCase i s t) : t.trace = .ran t.out :: s.trace := by
  cases h with
  | selected _ _ ht => rw [ht]; rfl
  | driven _ _ _ ht => rw [ht]; rfl
  | started _ _ _ _ _ ht => rw [ht]; rfl
  | helped _ ht => rw [ht]; rfl
  | unknown _ ht => rw [ht]; rfl

theorem StepCase.trace_cases {s u : State} (h : StepCase s u) :
    (s.rst = true ∧ u.out = [] ∧ u.trace = .reset :: s.trace) ∨
      (s.rst = false ∧ u.trace = .ran u.out :: s.trace) := by
  cases h with
  | reset hr hu => exact .inl ⟨hr, by rw [hu]; rfl, by rw [hu]; rfl⟩
  | idled hr _ _ hu => exact .inr ⟨hr, by rw [hu]; rfl⟩
  | took _ _ hr _ _ hx => exact .inr ⟨hr, hx.trace_eq⟩
  | held hr _ _ hu => exact .inr ⟨hr, by rw [hu]; rfl⟩
  | completed _ hr _ _ _ _ hu => exact .inr ⟨hr, by rw [hu]; rfl⟩

/-- A reset's mark in the trace counts as a cycle without events: it writes no pin. -/
theorem StepCase.tracedLevel_eq {s u : State} (h : StepCase s u) (p : PinRef) :
    tracedLevel p u.trace = levelAfter p (tracedLevel p s.trace) u.out := by
  obtain ⟨-, ho, ht⟩ | ⟨-, ht⟩ := h.trace_cases
  · rw [ht, ho]; rfl
  · rw [ht]; rfl

/-- Settles O34: a step applies the events of its cycle to the pins and to the levels of the trace alike, and the environment's move
touches neither. -/
theorem pinsFollowTheTrace : Obligations.PinsFollowTheTrace := by
  intro s t hs h p
  obtain ⟨-, u, rfl, hu⟩ := step_cases h
  calc u.level p = levelAfter p (s.level p) u.out := hu.level_eq p
    _ = levelAfter p (tracedLevel p s.trace) u.out := by rw [hs p]
    _ = tracedLevel p u.trace := (hu.tracedLevel_eq p).symm

/-! ### The byte a transition takes (R24, R45, R48) -/

/-- A command consumes the head of the receive stream, with the one event that says so. -/
theorem ExecCase.takes_head {i : Instr} {s t : State} (h : ExecCase i s t) :
    Event.rxTake i.byte ∈ t.out ∧ t.pending = s.pending.tail := by
  cases h with
  | selected _ _ ht => rw [ht]; exact ⟨.head _, rfl⟩
  | driven _ _ _ ht => rw [ht]; exact ⟨.head _, rfl⟩
  | started _ _ _ _ _ ht => rw [ht]; exact ⟨.head _, rfl⟩
  | helped _ ht => rw [ht]; exact ⟨.head _, rfl⟩
  | unknown _ ht => rw [ht]; exact ⟨.head _, rfl⟩

theorem StepCase.takes_head {s u : State} (h : StepCase s u) (hr : s.rst = false) (hp : s.phase = .idle) {b : Byte}
    {rest : List Byte} (hq : s.pending = b :: rest) : Event.rxTake b ∈ u.out ∧ u.pending = rest := by
  cases h with
  | reset hr' _ => exact absurd (hr.symm.trans hr') nofun
  | idled _ _ hq' _ => exact absurd (hq.symm.trans hq') nofun
  | took c cs _ _ hq' hx =>
    obtain ⟨rfl, rfl⟩ := List.cons.inj (hq.symm.trans hq')
    obtain ⟨hm, ht⟩ := hx.takes_head
    rw [decodeByte_byte] at hm
    exact ⟨hm, by rw [ht, hq, List.tail_cons]⟩
  | held _ hp' _ _ => exact absurd (hp.symm.trans hp') nofun
  | completed _ _ hp' _ _ _ _ => exact absurd (hp.symm.trans hp') nofun

theorem rxTake_notMem_echo (b e : Byte) (r : Bool) : Event.rxTake b ∉ echo e r := by
  cases r <;> simp [echo]

/-- Outside the taking of a byte the receive stream is left alone: in a reset cycle, in `WAIT` and with nothing pending. -/
theorem StepCase.takes_none {s u : State} (h : StepCase s u) (hn : s.rst = true ∨ s.phase = .wait ∨ s.pending = []) :
    (∀ b, Event.rxTake b ∉ u.out) ∧ u.pending = s.pending := by
  cases h with
  | reset _ hu => rw [hu]; exact ⟨nofun, rfl⟩
  | idled _ _ _ hu => rw [hu]; exact ⟨fun b => by simp, rfl⟩
  | took _ _ hr hp hq _ =>
    obtain hr' | hp' | hq' := hn
    · exact absurd (hr.symm.trans hr') nofun
    · exact absurd (hp.symm.trans hp') nofun
    · exact absurd (hq.symm.trans hq') nofun
  | held _ _ _ hu => rw [hu]; exact ⟨nofun, rfl⟩
  | completed _ _ _ _ _ _ hu => rw [hu]; exact ⟨fun b => by simp [rxTake_notMem_echo], rfl⟩

/-! ### The environment's move after a transition (log 6) -/

theorem ExecCase.nextMove_eq {i : Instr} {s t : State} (h : ExecCase i s t) : t.nextMove = s.nextMove := by
  cases h with
  | selected _ _ ht => rw [ht]; rfl
  | driven _ _ _ ht => rw [ht]; rfl
  | started _ _ _ _ _ ht => rw [ht]; rfl
  | helped _ ht => rw [ht]; rfl
  | unknown _ ht => rw [ht]; rfl

/-- No transition has a say in the move that the environment makes after it. -/
theorem StepCase.nextMove_eq {s u : State} (h : StepCase s u) : u.nextMove = s.nextMove := by
  cases h with
  | reset _ hu => rw [hu]; rfl
  | idled _ _ _ hu => rw [hu]; rfl
  | took _ _ _ _ _ hx => exact hx.nextMove_eq
  | held _ _ _ hu => rw [hu]; rfl
  | completed _ _ _ _ _ _ hu => rw [hu]; rfl

/-- Settles O45: the transition takes the head of the stream or nothing, and then the environment's move loses and brings bytes. -/
theorem bytesAreTakenInOrder : Obligations.BytesAreTakenInOrder := by
  intro s t h
  obtain ⟨-, u, rfl, hu⟩ := step_cases h
  rw [State.envStep_out, State.envStep_pending, hu.nextMove_eq]
  refine ⟨fun hr hp b rest hq => ?_, fun hn => ?_⟩
  · obtain ⟨hm, hrest⟩ := hu.takes_head hr hp hq
    exact ⟨hm, by rw [hrest]⟩
  · obtain ⟨hm, hsame⟩ := hu.takes_none hn
    exact ⟨hm, by rw [hsame]⟩

end Sys2Proof.Machine

/-! SUPPORT. Proofs of the statements of 30_encoding.md: the class of every byte, the byte of a command and the command of a byte,
and how many bytes each class has. -/

namespace Sys2Proof

/-! ### The fixed bytes (R36, R37) -/

/-- R37: five of the operation and help bytes are no selector, however many letters there are. -/
theorem Config.lookup_fixed_eq_none {c : Config} (hc : c.wf) {b : Byte}
    (hb : b ∈ ([0x48, 0x4C, 0x54, 0x55, 0x3F] : List Byte)) : c.lookup b = none := by
  have outside : ∀ b ∈ ([0x48, 0x4C, 0x54, 0x55, 0x3F] : List Byte),
      ¬ (0x30 ≤ b.toNat ∧ b.toNat ≤ 0x39) ∧ b.toNat < 0x61 := by decide
  obtain ⟨hdigit, hletter⟩ := outside b hb
  exact (Config.lookup_eq_none_of_wf hc b).2 (not_or.2 ⟨hdigit, fun h => absurd h.1 hletter.not_ge⟩)

/-- Settles O6: the table holds exactly the selector bytes, and the bytes outside it go through the seven tests of R36. -/
theorem classOfEveryByte : Obligations.ClassOfEveryByte := fun c hc => by
  have hfixed {b : Byte} (hb : b ∈ ([0x48, 0x4C, 0x54, 0x55, 0x3F] : List Byte)) :=
    classify_of_lookup_none (Config.lookup_fixed_eq_none hc hb)
  refine ⟨fun b hb => ?_, hfixed (by decide), hfixed (by decide),
    fun hn => classify_of_lookup_none ((Config.lookup_t_eq_none hc).2 hn), hfixed (by decide),
    fun hn => classify_of_lookup_none ((Config.lookup_u_eq_none hc).2 hn), hfixed (by decide), hfixed (by decide),
    fun b => (classify_eq_unknown_iff hc b).2⟩
  obtain ⟨p, hp⟩ := Option.isSome_iff_exists.1 ((Config.lookup_isSome_of_wf hc b).2 hb)
  exact ⟨p, hp, classify_of_lookup_some hp⟩

/-! ### The byte of a command and the command of a byte (R34, R38) -/

/-- A command of the configuration that is no selector has a byte outside the table (R37, R64). -/
theorem Instr.lookup_byte_eq_none {c : Config} (hc : c.wf) {i : Instr} (hi : i.wf c) (hsel : selectorOf i.byte ≠ some i) :
    c.lookup i.byte = none := by
  cases i with
  | high | low | shortHigh | longHigh | help => exact Config.lookup_fixed_eq_none hc (by decide)
  | shortLow => exact (Config.lookup_t_eq_none hc).2 hi
  | longLow => exact (Config.lookup_u_eq_none hc).2 hi
  | unk op => exact (Config.lookup_eq_none_of_wf hc op).2 (not_or.2 ⟨hi.1, hi.2.1⟩)
  | _ => exact absurd rfl hsel

/-- The byte of a command of the configuration decodes to that command. -/
theorem decodeByte_of_wf {c : Config} (hc : c.wf) {i : Instr} (hi : i.wf c) : decodeByte c i.byte = i := by
  by_cases hsel : selectorOf i.byte = some i
  · obtain ⟨p, hp⟩ := Option.isSome_iff_exists.1
      ((Config.lookup_isSome_of_wf hc i.byte).2 ((Instr.wf_of_selector hsel).1 hi))
    rw [decodeByte_of_lookup_some hp, hsel, Option.getD_some]
  · have hnone := decodeByte_of_lookup_none (Instr.lookup_byte_eq_none hc hi hsel)
    cases i with
    | high | low | shortLow | shortHigh | longLow | longHigh | help => exact hnone
    | unk op => rw [Instr.byte, decodeByte, (classify_eq_unknown_iff hc op).2 hi]
    | _ => exact absurd rfl hsel

/-- Settles O3: a selector's byte is in the table, and any other command's byte is outside it. -/
theorem decodeOfEncodeIsIdentity : Obligations.DecodeOfEncodeIsIdentity := by
  intro c i rest hc hi
  rw [encode, List.singleton_append, decode, decodeByte_of_wf hc hi]

/-- Settles O4: a command of the configuration with the byte is what the byte decodes to. -/
theorem everyByteIsOneCommand : Obligations.EveryByteIsOneCommand := by
  intro c b rest hc
  refine ⟨decodeByte c b, rfl, decodeByte_wf hc b, congrArg List.singleton (decodeByte_byte c b), fun j hj hb => ?_⟩
  have hbyte : j.byte = b := List.singleton_inj.1 hb
  rw [← hbyte, decodeByte_of_wf hc hj]

/-- Settles O7: each of these bytes is the byte of a command that exists, and of `SEL_t` and `t`, `SEL_u` and `u` exactly one does. -/
theorem selectorTakesPriorityOverPulse : Obligations.SelectorTakesPriorityOverPulse := by
  intro c hc
  refine ⟨?_, ?_, decodeByte_of_wf hc (i := .high) trivial, decodeByte_of_wf hc (i := .low) trivial,
    decodeByte_of_wf hc (i := .shortHigh) trivial, decodeByte_of_wf hc (i := .longHigh) trivial,
    decodeByte_of_wf hc (i := .help) trivial⟩
  · split
    next hn => exact decodeByte_of_wf hc (i := .sel_t) hn
    next hn => exact decodeByte_of_wf hc (i := .shortLow) (Nat.le_of_lt_succ (not_le.1 hn))
  · split
    next hn => exact decodeByte_of_wf hc (i := .sel_u) hn
    next hn => exact decodeByte_of_wf hc (i := .longLow) (Nat.le_of_lt_succ (not_le.1 hn))

/-- Settles O5: each command exists in its fixture, and the byte is its byte. -/
theorem workedBytesDecode : Obligations.WorkedBytesDecode := by
  have tc1 {i : Instr} (hi : i.wf Config.fixtureTC1) := decodeByte_of_wf (by decide) hi
  have tc2 {i : Instr} (hi : i.wf Config.fixtureTC2) := decodeByte_of_wf (by decide) hi
  exact ⟨tc1 (i := .sel_0) trivial, tc1 (i := .sel_f) (by decide), tc1 (i := .unk 0x67) (by decide),
    tc1 (i := .high) trivial, tc1 (i := .low) trivial, tc1 (i := .shortLow) (by decide), tc2 (i := .sel_t) (by decide),
    tc1 (i := .shortHigh) trivial, tc1 (i := .longLow) (by decide), tc2 (i := .longHigh) trivial,
    tc1 (i := .help) trivial, tc2 (i := .unk 0x7B) (by decide)⟩

/-! ### How many bytes each class has (R38) -/

/-- The values of the selector bytes when there are `n` letters. -/
def selectorValues (n : Nat) : Finset Nat := Finset.Icc 0x30 0x39 ∪ Finset.Icc 0x61 (0x60 + n)

/-- The values of the seven operation and help bytes. -/
def operationValues : Finset Nat := {0x48, 0x4C, 0x74, 0x54, 0x75, 0x55, 0x3F}

theorem mem_selectorValues {n k : Nat} :
    k ∈ selectorValues n ↔ (0x30 ≤ k ∧ k ≤ 0x39) ∨ (0x61 ≤ k ∧ k ≤ 0x60 + n) := by
  rw [selectorValues, Finset.mem_union, Finset.mem_Icc, Finset.mem_Icc]

theorem isSelectorByte_ofNat {n k : Nat} (hk : k < 256) :
    isSelectorByte n (BitVec.ofNat 8 k) ↔ k ∈ selectorValues n := by
  rw [mem_selectorValues, isSelectorByte, BitVec.toNat_ofNat, Nat.mod_eq_of_lt hk]

theorem ofNat_mem_operations {k : Nat} (hk : k < 256) :
    BitVec.ofNat 8 k ∈ ([0x48, 0x4C, 0x74, 0x54, 0x75, 0x55, 0x3F] : List Byte) ↔ k ∈ operationValues := by
  simp [operationValues, ← BitVec.toNat_inj, Nat.mod_eq_of_lt hk]

theorem card_selectorValues (n : Nat) : (selectorValues n).card = 10 + n := by
  have hdisj : Disjoint (Finset.Icc 0x30 0x39) (Finset.Icc 0x61 (0x60 + n)) :=
    Finset.disjoint_left.2 fun k hd hl => by
      rw [Finset.mem_Icc] at hd hl
      omega
  rw [selectorValues, Finset.card_union_of_disjoint hdisj, Nat.card_Icc, Nat.card_Icc]
  omega

/-- R37: with at most 19 letters no selector byte is an operation or help byte. -/
theorem disjoint_selectorValues_operationValues {n : Nat} (hn : n ≤ 19) : Disjoint (selectorValues n) operationValues := by
  have outside : ∀ k ∈ operationValues, ¬ (0x30 ≤ k ∧ k ≤ 0x39) ∧ ¬ (0x61 ≤ k ∧ k ≤ 0x60 + 19) := by decide
  refine Finset.disjoint_left.2 fun k hsel hop => ?_
  obtain ⟨hdigit, hletter⟩ := outside k hop
  rw [mem_selectorValues] at hsel
  omega

/-- The values below 256 whose byte has a property are counted by a set of values that says the same. -/
theorem countP_range_eq_card {p : Nat → Bool} {values : Finset Nat} (hlt : ∀ k ∈ values, k < 256)
    (h : ∀ k < 256, p k = true ↔ k ∈ values) : (List.range 256).countP p = values.card := by
  have hset : {k ∈ Finset.range 256 | p k = true} = values := by
    ext k
    rw [Finset.mem_filter, Finset.mem_range]
    exact ⟨fun hk => (h k hk.1).1 hk.2, fun hk => ⟨hlt k hk, (h k (hlt k hk)).2 hk⟩⟩
  rw [← hset, ← Nat.count_eq_card_filter_range, Nat.count]
  simp only [Bool.decide_eq_true]

/-- Settles O8: the unknown bytes are those that the selector bytes and the seven operation and help bytes leave. -/
theorem classSizes : Obligations.ClassSizes := by
  intro c hc hn
  have hsel : ∀ k ∈ selectorValues c.nLetter, k < 256 := fun k hk => by
    rw [mem_selectorValues] at hk
    omega
  have hop : ∀ k ∈ operationValues, k < 256 := by decide
  constructor
  · rw [countP_range_eq_card hsel, card_selectorValues]
    intro k hk
    rw [Config.lookup_isSome_of_wf hc, isSelectorByte_ofNat hk]
  · rw [countP_range_eq_card (values := Finset.range 256 \ (selectorValues c.nLetter ∪ operationValues))]
    · have hsub : selectorValues c.nLetter ∪ operationValues ⊆ Finset.range 256 :=
        Finset.union_subset (fun k hk => Finset.mem_range.2 (hsel k hk)) fun k hk => Finset.mem_range.2 (hop k hk)
      have hcard : operationValues.card = 7 := rfl
      rw [Finset.card_sdiff_of_subset hsub, Finset.card_union_of_disjoint (disjoint_selectorValues_operationValues hn),
        card_selectorValues, hcard, Finset.card_range]
      omega
    · exact fun k hk => Finset.mem_range.1 (Finset.mem_sdiff.1 hk).1
    · intro k hk
      rw [decide_eq_true_iff, classify_eq_unknown_iff hc, Finset.mem_sdiff, Finset.mem_range, Finset.mem_union,
        ← isSelectorByte_ofNat hk, ← ofNat_mem_operations hk, and_iff_right hk, not_or, not_or, and_assoc]

end Sys2Proof

/-! SUPPORT. Proofs of the statements of 40_dispatch_cycle.md: what a step does in each arm of the dispatcher, the laws of the trace
that every step keeps, what the transport has no say in, and the runs that end a pulse and answer a stream. -/

namespace Sys2Proof.Machine

open Host

/-! ### A step in each arm of the dispatcher, and in a reset cycle (R43, R50, R80) -/

/-- In a well-formed configuration a cycle without reset is a transition of the dispatcher and the environment's move. -/
theorem step_of_dispatch {s : State} (hc : s.cfg.wf) (hr : s.rst = false) :
    step s = andThen (dispatch (fun b t => exec (decodeByte t.cfg b) t) s) fun t => .next t.envStep := by
  rw [step, cycle, hc, clockEdge, hr]
  rfl

/-- Settles O24: with a byte pending the dispatcher's transition is the command of that byte. -/
theorem stepRunsDecodedCommand : Obligations.StepRunsDecodedCommand := by
  intro s b rest hc hr hp hq
  rw [step_of_dispatch hc hr, dispatch, hp, State.rx, hq]
  rfl

theorem step_of_idle {s : State} (hc : s.cfg.wf) (hr : s.rst = false) (hp : s.phase = .idle) (hq : s.pending = []) :
    step s = .next (s.record (.ran [.poll])).envStep := by
  rw [step_of_dispatch hc hr, dispatch, hp, State.rx, hq]
  rfl

/-- Settles O25: with nothing pending the dispatcher's transition is the idle iteration. -/
theorem idleIterationOnlyPolls : Obligations.IdleIterationOnlyPolls := fun _ => step_of_idle

theorem step_of_hold {s : State} (hc : s.cfg.wf) (hr : s.rst = false) (hp : s.phase = .wait) (hm : s.tmr ≠ .expired) :
    step s = .next (s.record (.ran [])).envStep := by
  rw [step_of_dispatch hc hr, dispatch, hp, State.done, decide_eq_false hm]
  rfl

/-- Settles O26: until the timer has expired the dispatcher's transition in `WAIT` is the hold. -/
theorem holdDoesNothing : Obligations.HoldDoesNothing := fun _ => step_of_hold

/-- R62: the cycle that completes the pulse of `s`, with the path ready or not as `r` says. -/
def State.completion (s : State) (l : Level) (r : Bool) : Cycle :=
  .ran ([Event.tmrDone, Event.pinSet s.sel l] ++ echo s.cur r ++ [Event.poll])

/-- R62: what the completing transition of a pulse leaves. -/
def State.afterCompletion (s : State) (l : Level) (r : Bool) : State :=
  ((s.endWait.setTimer .idle).drive s.sel l).record (s.completion l r)

theorem step_of_completion {s : State} {l : Level} (hc : s.cfg.wf) (hr : s.rst = false) (hp : s.phase = .wait)
    (hm : s.tmr = .expired) (hl : secondLevel (classify s.cfg s.cur) = some l) (hs : s.sel.port < s.cfg.nPort) :
    step s = .next (s.afterCompletion l s.txr).envStep := by
  rw [step_of_dispatch hc hr, dispatch, hp, State.done, decide_eq_true hm]
  exact congrArg (andThen · _) (completePulse_next hl hs)

/-- R80: a reset cycle is made whatever the dispatcher would do. -/
theorem step_of_reset {s : State} (hc : s.cfg.wf) (hr : s.rst = true) : step s = .next s.initialise.envStep := by
  rw [step, cycle, hc, clockEdge, hr]
  rfl

/-! ### The events of a command (R28) -/

/-- What an attempt to transmit leaves in a cycle: a byte, a text, or nothing when the path is not ready (R46, R63, R68). -/
inductive Attempt : List Event → Prop where
  | dropped : Attempt []
  | byte (b : Byte) : Attempt [.txByte b]
  | text (text : List Byte) : Attempt [.txString text]

theorem attempt_echo (e : Byte) (r : Bool) : Attempt (echo e r) := by
  cases r with
  | true => exact .byte e
  | false => exact .dropped

theorem attempt_sendText (text : List Byte) (r : Bool) : Attempt (sendText text r) := by
  cases r with
  | true => exact .text text
  | false => exact .dropped

/-- The events of a command, with the phase it leaves: it answers its byte, with or without a pin write before that, or it starts a
pulse. -/
inductive ExecEvents (i : Instr) (s t : State) : Prop where
  | answered (es : List Event) (hes : Attempt es) (hp : t.phase = s.phase)
      (ho : t.out = [Event.rxTake i.byte] ++ es ++ [Event.poll])
  | drove (l : Level) (es : List Event) (hes : Attempt es) (hp : t.phase = s.phase)
      (ho : t.out = [Event.rxTake i.byte, Event.pinSet s.sel l] ++ es ++ [Event.poll])
  | started (a : Level) (ms : Nat) (hi : StartsPulse s.cfg i a ms) (hp : t.phase = .wait) (hcur : t.cur = i.byte)
      (ho : t.out = [.rxTake i.byte, .pinSet s.sel a, .tmrStart ms])

theorem ExecCase.events {i : Instr} {s t : State} (h : ExecCase i s t) : ExecEvents i s t := by
  cases h with
  | selected _ _ ht => exact ht ▸ .answered _ (attempt_echo _ _) rfl rfl
  | driven l _ _ ht => exact ht ▸ .drove l _ (attempt_echo _ _) rfl rfl
  | started a ms hi _ _ ht => exact ht ▸ .started a ms hi rfl rfl rfl
  | helped _ ht => exact ht ▸ .answered _ (attempt_sendText _ _) rfl rfl
  | unknown _ ht => exact ht ▸ .answered _ (attempt_echo _ _) rfl rfl

/-! ### The selection as the trace tells it (R10, R52 (g)) -/

theorem selectionAfter_of_no_take {c : Config} {es : List Event} (h : ∀ b, Event.rxTake b ∉ es) (p : PinRef) :
    selectionAfter c p es = p := by
  induction es with
  | nil => rfl
  | cons e es ih =>
    cases e with
    | rxTake b => exact absurd List.mem_cons_self (h b)
    | _ => exact ih fun b hb => h b (List.mem_cons_of_mem _ hb)

theorem Attempt.rxTake_notMem {es : List Event} (h : Attempt es) (b : Byte) : Event.rxTake b ∉ es := by
  cases h <;> simp

/-- A command takes its byte first, and no other. -/
theorem ExecCase.out_eq_take {i : Instr} {s t : State} (h : ExecCase i s t) :
    ∃ es, t.out = .rxTake i.byte :: es ∧ ∀ b, Event.rxTake b ∉ es := by
  cases h.events with
  | answered es hes _ ho => exact ⟨_, ho, fun b => by simp [hes.rxTake_notMem b]⟩
  | drove l es hes _ ho => exact ⟨_, ho, fun b => by simp [hes.rxTake_notMem b]⟩
  | started a ms _ _ _ ho => exact ⟨_, ho, fun b => by simp⟩

theorem lookup_eq_none_of_classify {c : Config} {b : Byte} (h : ∀ p, classify c b ≠ .selectPin p) : c.lookup b = none :=
  Option.eq_none_iff_forall_ne_some.2 fun p hp => h p (classify_of_lookup_some hp)

theorem StartsPulse.lookup_eq_none {c : Config} (hc : c.wf) {i : Instr} {a : Level} {ms : Nat} (h : StartsPulse c i a ms) :
    c.lookup i.byte = none :=
  lookup_eq_none_of_classify fun p hp => by simpa [hp, duration] using h.duration_eq hc

/-- R53, R54: a command leaves in `SEL` the table's pin for its byte, and the old one when the table has none. -/
theorem ExecCase.sel_eq {i : Instr} {s t : State} (h : ExecCase i s t) (hc : s.cfg.wf) :
    t.sel = (s.cfg.lookup i.byte).getD s.sel := by
  cases h with
  | selected p hp ht => rw [ht, hp]; rfl
  | driven l hi _ ht =>
    have hn : s.cfg.lookup i.byte = none := by
      obtain ⟨rfl, -⟩ | ⟨rfl, -⟩ := hi
      · exact Config.lookup_fixed_eq_none hc (by decide)
      · exact Config.lookup_fixed_eq_none hc (by decide)
    rw [ht, hn]; rfl
  | started a ms hi _ _ ht => rw [ht, StartsPulse.lookup_eq_none hc hi]; rfl
  | helped hi ht => rw [ht, hi, Config.lookup_fixed_eq_none hc (by decide)]; rfl
  | unknown hu ht => rw [ht, lookup_eq_none_of_classify fun p => by rw [hu]; exact nofun]; rfl

/-- A transition keeps the selection the one that the trace gives: a reset cycle sets both to the default, and any other cycle
applies its events to both. -/
theorem StepCase.sel_eq_traced {s u : State} (h : StepCase s u) (hc : s.cfg.wf)
    (hs : s.sel = tracedSelection s.cfg s.trace) : u.sel = tracedSelection s.cfg u.trace := by
  cases h with
  | reset _ hu => rw [hu]; rfl
  | idled _ _ _ hu => rw [hu]; exact hs
  | took _ _ _ _ _ hx =>
    obtain ⟨es, ho, hn⟩ := hx.out_eq_take
    rw [hx.trace_eq, tracedSelection, ho, selectionAfter, selectionAfter_of_no_take hn, ← hs]
    exact hx.sel_eq hc
  | held _ _ _ hu => rw [hu]; exact hs
  | completed _ _ _ _ _ _ hu =>
    rw [hu, State.record_trace, tracedSelection, selectionAfter_of_no_take fun b => by simp [rxTake_notMem_echo]]
    exact hs

/-- Settles O35: the transition keeps the two selections equal, and the environment's move touches neither. -/
theorem selectionFollowsTheTrace : Obligations.SelectionFollowsTheTrace := by
  intro s t hs h
  obtain ⟨hc, u, rfl, hu⟩ := step_cases h
  rw [State.envStep_sel, State.envStep_cfg, State.envStep_trace, hu.cfg_eq]
  exact hu.sel_eq_traced hc hs

/-! ### The timer's events as the trace tells them (R52 (e)) -/

theorem State.timerLawful_of_idle {s : State} (hp : s.phase = .idle) : s.TimerLawful ↔ tracedTimer s.trace = .quiet := by
  rw [State.TimerLawful, hp]

theorem State.timerLawful_of_wait {s : State} (hp : s.phase = .wait) :
    s.TimerLawful ↔ ∃ ms, duration (classify s.cfg s.cur) = some ms ∧ tracedTimer s.trace = .outstanding ms := by
  rw [State.TimerLawful, hp]

/-- Between commands, an attempt to transmit and the `Poll` after it start no delay and complete none. -/
theorem Attempt.timerLaw {es : List Event} (h : Attempt es) : (es ++ [Event.poll]).foldl TimerLaw.next .quiet = .quiet := by
  cases h <;> rfl

/-- A command taken between commands leaves no delay outstanding, or the one of the pulse it starts. -/
theorem ExecCase.timerLawful {i : Instr} {s t : State} (h : ExecCase i s t) (hc : s.cfg.wf) (hp : s.phase = .idle)
    (hs : tracedTimer s.trace = .quiet) : t.TimerLawful := by
  have htraced : tracedTimer t.trace = t.out.foldl TimerLaw.next .quiet := by rw [h.trace_eq, tracedTimer, hs]
  cases h.events with
  | answered es hes hp' ho =>
    rw [State.timerLawful_of_idle (hp'.trans hp), htraced, ho]
    exact hes.timerLaw
  | drove l es hes hp' ho =>
    rw [State.timerLawful_of_idle (hp'.trans hp), htraced, ho]
    exact hes.timerLaw
  | started a ms hi hp' hcur ho =>
    rw [State.timerLawful_of_wait hp', htraced, ho, hcur, h.cfg_eq]
    exact ⟨ms, hi.duration_eq hc, rfl⟩

/-- Every transition keeps the timer's law: in `WAIT` a hold has no event, and a completion begins with the `TmrDone`. -/
theorem StepCase.timerLawful {s u : State} (h : StepCase s u) (hc : s.cfg.wf) (hs : s.TimerLawful) : u.TimerLawful := by
  cases h with
  | reset _ hu => rw [hu, State.timerLawful_of_idle rfl]; rfl
  | idled _ hp _ hu =>
    have hq := (State.timerLawful_of_idle hp).1 hs
    rw [hu]
    exact (State.timerLawful_of_idle (s := s.record _) hp).2 (congrArg (TimerLaw.next · .poll) hq)
  | took _ _ _ hp _ hx => exact hx.timerLawful hc hp ((State.timerLawful_of_idle hp).1 hs)
  | held _ _ _ hu => rw [hu]; exact hs
  | completed _ _ hp _ _ _ hu =>
    obtain ⟨ms, -, hms⟩ := (State.timerLawful_of_wait hp).1 hs
    rw [hu, State.timerLawful_of_idle rfl, State.record_trace, tracedTimer, State.drive_trace, State.setTimer_trace,
      State.endWait_trace, hms]
    exact (attempt_echo _ _).timerLaw

/-- Settles O36: the transition keeps the law, and the environment's move touches none of what it speaks of. -/
theorem timerEventsAlternate : Obligations.TimerEventsAlternate := by
  intro s t _ hs h
  obtain ⟨hc, u, rfl, hu⟩ := step_cases h
  exact hu.timerLawful hc hs

/-! ### Counting the events since reset (R52 (c)) -/

theorem countSinceReset_ran (test : Event → Bool) (es : List Event) (cs : List Cycle) :
    countSinceReset test (.ran es :: cs) = es.countP test + countSinceReset test cs := by
  rw [countSinceReset, countSinceReset, sinceReset, List.map_cons, List.sum_cons]

theorem idleIterations_ran (es : List Event) (cs : List Cycle) :
    idleIterations (.ran es :: cs) = idleIterations cs + if es = [.poll] then 1 else 0 := by
  simp [idleIterations, sinceReset, List.countP_cons]

/-- How the counts of one cycle's events go with the commands in progress before it and after it: one `Poll` for a byte answered
or an idle iteration, and at most one transmission for a byte. -/
structure Tally (before after : Nat) (es : List Event) : Prop where
  polls : es.countP Event.isPoll + after = before + es.countP Event.isTake + if es = [.poll] then 1 else 0
  transmits : es.countP Event.isTransmit + after ≤ before + es.countP Event.isTake

theorem Attempt.tally_take {es : List Event} (h : Attempt es) (b : Byte) :
    Tally 0 0 ([Event.rxTake b] ++ es ++ [Event.poll]) := by
  cases h with
  | dropped => exact ⟨rfl, Nat.zero_le 1⟩
  | byte => exact ⟨rfl, Nat.le_refl 1⟩
  | text => exact ⟨rfl, Nat.le_refl 1⟩

theorem Attempt.tally_done {es : List Event} (h : Attempt es) : Tally 1 0 ([Event.tmrDone] ++ es ++ [Event.poll]) := by
  cases h with
  | dropped => exact ⟨rfl, Nat.zero_le 1⟩
  | byte => exact ⟨rfl, Nat.le_refl 1⟩
  | text => exact ⟨rfl, Nat.le_refl 1⟩

/-- A pin write in a cycle changes nothing of its tally. -/
theorem Tally.pinSet {before after : Nat} {e : Event} {es : List Event} (h : Tally before after (e :: es)) (he : e ≠ .poll)
    (p : PinRef) (l : Level) : Tally before after (e :: .pinSet p l :: es) := by
  obtain ⟨hpolls, htransmits⟩ := h
  rw [if_neg fun hl => he (List.cons.inj hl).1] at hpolls
  exact ⟨hpolls.trans (by rw [if_neg fun hl => he (List.cons.inj hl).1]; rfl), htransmits⟩

theorem State.inFlight_of_idle {s : State} (h : s.phase = .idle) : s.inFlight = 0 := by rw [State.inFlight, h]

theorem State.inFlight_of_wait {s : State} (h : s.phase = .wait) : s.inFlight = 1 := by rw [State.inFlight, h]

theorem ExecCase.tally {i : Instr} {s t : State} (h : ExecCase i s t) (hp : s.phase = .idle) : Tally 0 t.inFlight t.out := by
  cases h.events with
  | answered es hes hp' ho =>
    rw [ho, State.inFlight_of_idle (hp'.trans hp)]
    exact hes.tally_take i.byte
  | drove l es hes hp' ho =>
    rw [ho, State.inFlight_of_idle (hp'.trans hp)]
    exact (hes.tally_take i.byte).pinSet nofun s.sel l
  | started a ms _ hp' _ ho =>
    rw [ho, State.inFlight_of_wait hp']
    exact ⟨rfl, Nat.le_refl 1⟩

/-- A reset cycle begins the counts anew; any other cycle adds a tally. -/
theorem StepCase.tally {s u : State} (h : StepCase s u) :
    u = s.initialise ∨ (u.trace = .ran u.out :: s.trace ∧ Tally s.inFlight u.inFlight u.out) := by
  cases h with
  | reset _ hu => exact .inl hu
  | idled _ hp _ hu => rw [hu]; exact .inr ⟨rfl, ⟨Nat.add_comm _ _, Nat.le_of_eq (Nat.add_comm _ _)⟩⟩
  | took _ _ _ hp _ hx =>
    rw [State.inFlight_of_idle hp]
    exact .inr ⟨hx.trace_eq, hx.tally hp⟩
  | held _ hp _ hu => rw [hu]; exact .inr ⟨rfl, ⟨Nat.add_comm _ _, Nat.le_of_eq (Nat.add_comm _ _)⟩⟩
  | completed _ _ hp _ _ _ hu =>
    rw [hu, State.inFlight_of_wait hp]
    exact .inr ⟨rfl, (attempt_echo _ _).tally_done.pinSet nofun _ _⟩

/-- Settles O37: the tally of each cycle keeps the balance. -/
theorem onePollPerIteration : Obligations.OnePollPerIteration := by
  intro s t hs h
  obtain ⟨-, u, rfl, hu⟩ := step_cases h
  show u.PollLawful
  obtain rfl | ⟨htrace, hpolls, -⟩ := hu.tally
  · rfl
  · rw [State.PollLawful] at hs ⊢
    rw [htrace, countSinceReset_ran, countSinceReset_ran, idleIterations_ran]
    omega

theorem State.TransmitLawful.bound {s : State} (h : s.TransmitLawful) :
    countSinceReset Event.isTransmit s.trace ≤ countSinceReset Event.isTake s.trace :=
  (Nat.le_add_right _ _).trans h

/-- Settles O38: the tally of each cycle keeps the bound. -/
theorem transmissionsNeverExceedBytesTaken : Obligations.TransmissionsNeverExceedBytesTaken := by
  intro s t hs h
  obtain ⟨-, u, rfl, hu⟩ := step_cases h
  have hlawful : u.TransmitLawful := by
    obtain rfl | ⟨htrace, -, htransmits⟩ := hu.tally
    · exact Nat.le_refl 0
    · rw [State.TransmitLawful] at hs ⊢
      rw [htrace, countSinceReset_ran, countSinceReset_ran]
      omega
  exact ⟨hlawful, hlawful.bound⟩

/-! ### The order of one cycle's events (R52 (a), (b), (d)) -/

/-- R52 (a), (b), (d) for some events of a cycle, with the readiness `r` and the selected pin `p` before it. -/
def OrderLawful (r : Bool) (p : PinRef) (es : List Event) : Prop :=
  transmitLast es ∧ (∀ e ∈ es, e.isTransmit = true → r = true) ∧ ∀ q l, Event.pinSet q l ∈ es → q = p

/-- An event that transmits nothing and drives no pin but `p` may come first. -/
theorem OrderLawful.cons {r : Bool} {p : PinRef} {e : Event} {es : List Event} (h : OrderLawful r p es)
    (ht : e.isTransmit = false) (hp : ∀ q l, e = .pinSet q l → q = p) : OrderLawful r p (e :: es) := by
  obtain ⟨hlast, hready, hpin⟩ := h
  refine ⟨⟨fun he => absurd (ht.symm.trans he) nofun, hlast⟩, List.forall_mem_cons.2 ⟨fun he => ?_, hready⟩, fun q l hq => ?_⟩
  · exact absurd (ht.symm.trans he) nofun
  · obtain hq | hq := List.mem_cons.1 hq
    · exact hp q l hq.symm
    · exact hpin q l hq

theorem OrderLawful.pinSet {r : Bool} {p : PinRef} {es : List Event} (h : OrderLawful r p es) (l : Level) :
    OrderLawful r p (.pinSet p l :: es) :=
  h.cons rfl fun _ _ he => (Event.pinSet.inj he).1.symm

theorem orderLawful_nil (r : Bool) (p : PinRef) : OrderLawful r p [] := ⟨trivial, nofun, nofun⟩

theorem orderLawful_poll (r : Bool) (p : PinRef) : OrderLawful r p [.poll] := (orderLawful_nil r p).cons rfl nofun

/-- An attempt to transmit comes at the end of a cycle, and succeeds only when the path is ready. -/
theorem orderLawful_echo (e : Byte) (r : Bool) (p : PinRef) : OrderLawful r p (echo e r ++ [Event.poll]) := by
  cases r with
  | true => simp [OrderLawful, echo, transmitLast, Event.isTransmit]
  | false => exact orderLawful_poll false p

theorem orderLawful_sendText (text : List Byte) (r : Bool) (p : PinRef) : OrderLawful r p (sendText text r ++ [Event.poll]) := by
  cases r with
  | true => simp [OrderLawful, sendText, transmitLast, Event.isTransmit]
  | false => exact orderLawful_poll false p

theorem CycleEvents.orderLawful {s : State} {es : List Event} (h : CycleEvents s es) : OrderLawful s.txReady s.sel es := by
  cases h with
  | silent => exact orderLawful_nil _ _
  | polled => exact orderLawful_poll _ _
  | answered b e => exact (orderLawful_echo e s.txReady s.sel).cons rfl nofun
  | drove b e l => exact ((orderLawful_echo e s.txReady s.sel).pinSet l).cons rfl nofun
  | started b a ms hm => exact (((orderLawful_nil s.txReady s.sel).cons (e := .tmrStart ms) rfl nofun).pinSet a).cons rfl nofun
  | helped b text => exact (orderLawful_sendText text s.txReady s.sel).cons rfl nofun
  | completed e l => exact ((orderLawful_echo e s.txReady s.sel).pinSet l).cons rfl nofun

/-- Settles O40: each list of events a cycle can have keeps the order. -/
theorem eventsOfOneCycle : Obligations.EventsOfOneCycle := fun _ _ h => (step_out h).orderLawful

/-! ### What the transport has no say in (R46, R48, R49, R68) -/

/-- The events of a cycle without its transmissions. -/
def silenced (es : List Event) : List Event := es.filter fun e => !e.isTransmit

theorem Attempt.silenced_eq {es : List Event} (h : Attempt es) : silenced es = [] := by
  cases h <;> rfl

/-- Cycles that differ in their attempt to transmit have the same other events. -/
theorem silenced_answer {es es' : List Event} (h : Attempt es) (h' : Attempt es') (pre : List Event) :
    silenced (pre ++ es ++ [Event.poll]) = silenced (pre ++ es' ++ [Event.poll]) := by
  have happend (xs ys : List Event) : silenced (xs ++ ys) = silenced xs ++ silenced ys := List.filter_append xs ys
  rw [happend, happend pre, happend, happend pre, h.silenced_eq, h'.silenced_eq]

/-- Settles O47: in `WAIT` the step is a hold or a completion, with either input, and only the completion's echo attempt reads it. -/
theorem pulseIgnoresTheTransport : Obligations.PulseIgnoresTheTransport := by
  intro s t q r hp hr h
  obtain ⟨hc, u, rfl, hu⟩ := step_cases h
  cases hu with
  | reset hr' _ => exact absurd (hr.symm.trans hr') nofun
  | idled _ hp' _ _ => exact absurd (hp.symm.trans hp') nofun
  | took _ _ _ hp' _ _ => exact absurd (hp.symm.trans hp') nofun
  | held _ _ hm hu =>
    rw [hu]
    exact ⟨_, step_of_hold hc hr hp hm, rfl, rfl, rfl, rfl, rfl, rfl⟩
  | completed l _ _ hm hl hs hu =>
    rw [hu]
    exact ⟨_, step_of_completion hc hr hp hm hl hs, rfl, rfl, rfl, rfl, rfl,
      silenced_answer (attempt_echo _ _) (attempt_echo _ _) _⟩

/-- `u` is `t` but for the readiness `r`, the trace, and the transmissions of the newest cycle. -/
structure SameButReply (r : Bool) (t u : State) : Prop where
  state : u = { t with txReady := r, trace := u.trace }
  events : silenced u.out = silenced t.out

theorem startPulse_sameButReply {b : Byte} {a : Level} {ms : Nat} {s t : State} (r : Bool)
    (h : startPulse b a ms s = .next t) :
    ∃ u, startPulse b a ms { s with txReady := r } = .next u ∧ SameButReply r t u := by
  obtain ⟨hp, hm, rfl⟩ := startPulse_cases h
  have hnext := startPulse_next (b := b) (a := a) (ms := ms) (s := { s with txReady := r }) hp hm
  exact ⟨_, hnext, rfl, rfl⟩

/-- R46: a command that gives a next state does so with either readiness. -/
theorem exec_sameButReply {i : Instr} {s t : State} (r : Bool) (h : exec i s = .next t) :
    ∃ u, exec i { s with txReady := r } = .next u ∧ SameButReply r t u := by
  cases exec_shape i with
  | selection b he =>
    rw [he] at h ⊢
    obtain ⟨p, hp, rfl⟩ := select_cases h
    exact ⟨_, select_next hp, rfl, silenced_answer (attempt_echo _ _) (attempt_echo _ _) _⟩
  | level b l he =>
    rw [he] at h ⊢
    obtain ⟨hp, rfl⟩ := setLevel_cases h
    exact ⟨_, setLevel_next hp, rfl, silenced_answer (attempt_echo _ _) (attempt_echo _ _) _⟩
  | pulse b a ms he =>
    rw [he] at h ⊢
    exact startPulse_sameButReply r h
  | lowerPulse b a ms he =>
    rw [he] at h ⊢
    obtain ⟨hl, h⟩ := unlessSelector_cases h
    have hpulse : unlessSelector b (startPulse b a ms) { s with txReady := r } = _ := unlessSelector_none hl
    rw [hpulse]
    exact startPulse_sameButReply r h
  | help he =>
    rw [he, sendHelp_next] at h ⊢
    obtain rfl := Outcome.next.inj h
    exact ⟨_, rfl, rfl, silenced_answer (attempt_sendText _ _) (attempt_sendText _ _) _⟩
  | unknown op he =>
    rw [he] at h ⊢
    obtain ⟨hc, rfl⟩ := execUnk_cases h
    exact ⟨_, unknown_next hc, rfl, silenced_answer (attempt_echo _ _) (attempt_echo _ _) _⟩

/-- R46, R68: a step that gives a next state does so with either readiness, up to the transmissions of its cycle. -/
theorem step_sameButReply {s t : State} (r : Bool) (h : step s = .next t) :
    ∃ u v, t = u.envStep ∧ step { s with txReady := r } = .next v.envStep ∧ SameButReply r u v := by
  obtain ⟨hc, u, ht, ⟨hr, rfl⟩ | ⟨hr, hd⟩⟩ := cycle_cases h
  · exact ⟨_, _, ht, step_of_reset hc hr, rfl, rfl⟩
  · obtain ⟨hp, hq, rfl⟩ | ⟨hp, b, rest, hq, hx⟩ | ⟨hp, hm, rfl⟩ | ⟨hp, hm, hx⟩ := dispatch_cases hd
    · exact ⟨_, _, ht, step_of_idle hc hr hp hq, rfl, rfl⟩
    · obtain ⟨v, hv, hsame⟩ := exec_sameButReply r hx
      refine ⟨u, v, ht, ?_, hsame⟩
      rw [stepRunsDecodedCommand { s with txReady := r } b rest hc hr hp hq, hv]
      rfl
    · exact ⟨_, _, ht, step_of_hold hc hr hp hm, rfl, rfl⟩
    · obtain ⟨l, hl, hs, rfl⟩ := completePulse_cases hx
      exact ⟨_, _, ht, step_of_completion hc hr hp hm hl hs, rfl,
        silenced_answer (attempt_echo _ _) (attempt_echo _ _) _⟩

/-- Settles O48: the environment's move sets the readiness anew, and a path that is not ready transmits nothing by O40. -/
theorem notReadyOnlyDropsTheTransmission : Obligations.NotReadyOnlyDropsTheTransmission := by
  intro s t r h
  obtain ⟨u, v, rfl, hv, hstate, hevents⟩ := step_sameButReply r h
  refine ⟨_, hv, by rw [hstate]; rfl, hevents, fun hr e he => ?_⟩
  obtain ⟨-, hready, -⟩ := eventsOfOneCycle _ _ hv
  exact Bool.eq_false_iff.2 fun ht => absurd (hr.symm.trans (hready e he ht)) nofun

/-! ### How a pulse ends (R49, R62, R74, R81) -/

/-- The move `m` heads the schedule: the machine after the environment has made it. -/
theorem envStep_of_env {s : State} {m : EnvMove} {ms : List EnvMove} (h : s.env = m :: ms) : s.envStep = s.applyMove m := by
  rw [State.envStep, nextMove_of_env h]

/-- After `k` holds without events, the cycle `last` ends the pulse of `s`, and `t` is the state after it. -/
structure EndsPulse (k : Nat) (last : Cycle) (s t : State) : Prop where
  run : core.run (k + 1) s = .next t
  idle : t.phase = .idle
  trace : t.trace = last :: (List.replicate k (.ran []) ++ s.trace)

/-- The pulse of `s` is completed after `k` holds, with its second level `l` on the pin that was selected all along. -/
structure Completes (k : Nat) (l : Level) (r : Bool) (s t : State) : Prop extends EndsPulse k (s.completion l r) s t where
  sel : t.sel = s.sel
  level : t.level s.sel = some l

/-- R81: the pulse of `s` is ended after `k` holds by a reset cycle, which writes no pin. -/
structure Aborts (k : Nat) (s t : State) : Prop extends EndsPulse k .reset s t where
  sel : t.sel = Config.selReset
  pins : t.pinlvl = s.pinlvl

/-- R48: what a hold and the environment's move after it leave. -/
def State.afterHold (s : State) : State := (s.record (.ran [])).envStep

theorem EndsPulse.of_hold {k : Nat} {last : Cycle} {s t : State} (hs : step s = .next s.afterHold)
    (h : EndsPulse k last s.afterHold t) : EndsPulse (k + 1) last s t where
  run := (run_succ (k + 1) hs).trans h.run
  idle := h.idle
  trace := by
    rw [h.trace, State.afterHold, State.envStep_trace, State.record_trace, List.replicate_succ', List.append_assoc]
    rfl

theorem Completes.of_hold {k : Nat} {l : Level} {r : Bool} {s t : State} (hs : step s = .next s.afterHold)
    (h : Completes k l r s.afterHold t) : Completes (k + 1) l r s t :=
  { h.toEndsPulse.of_hold hs with sel := h.sel, level := h.level }

theorem Aborts.of_hold {k : Nat} {s t : State} (hs : step s = .next s.afterHold) (h : Aborts k s.afterHold t) :
    Aborts (k + 1) s t :=
  { h.toEndsPulse.of_hold hs with sel := h.sel, pins := h.pins }

theorem run_one {s t : State} (h : step s = .next t) : core.run 1 s = .next t := run_succ 0 h

/-- Inside a pulse whose timer has expired, the very next step completes it. -/
theorem completes_of_expired {s : State} {l : Level} (h : s.Inv) (hr : s.rst = false) (hp : s.phase = .wait)
    (hm : s.tmr = .expired) (hl : secondLevel (classify s.cfg s.cur) = some l) :
    Completes 0 l s.txr s (s.afterCompletion l s.txr).envStep where
  run := run_one (step_of_completion h.cfgWf hr hp hm hl h.portExists)
  idle := rfl
  trace := rfl
  sel := rfl
  level := State.level_drive_same _ s.sel l

/-- A hold keeps the invariants. -/
theorem State.Inv.afterHold {s : State} (h : s.Inv) : s.afterHold.Inv := (h.record _).envStep

/-- R49: after `n` moves that do not fire and one that does, the pulse completes. -/
theorem completes_of_quietMoves {n ms : Nat} {r : Bool} {l : Level} {rest : List EnvMove} {s : State} (h : s.Inv)
    (hp : s.phase = .wait) (hm : s.tmr = .running ms) (hr : s.rst = false)
    (hl : secondLevel (classify s.cfg s.cur) = some l)
    (he : s.env = List.replicate n (quietMove r false) ++ quietMove r true :: rest) :
    ∃ t, Completes (n + 1) l r s t := by
  have hs : step s = .next s.afterHold := step_of_hold h.cfgWf hr hp (by rw [hm]; exact nofun)
  induction n generalizing s with
  | zero =>
    have hmove : s.afterHold = (s.record (.ran [])).applyMove (quietMove r true) := envStep_of_env he
    have hfired : s.afterHold.tmr = .expired := by rw [hmove]; exact congrArg Timer.fire hm
    have hend := completes_of_expired h.afterHold (by rw [hmove]; rfl) hp hfired hl
    have hready : s.afterHold.txr = r := by rw [hmove]; rfl
    rw [hready] at hend
    exact ⟨_, hend.of_hold hs⟩
  | succ n ih =>
    have hmove : s.afterHold = (s.record (.ran [])).applyMove (quietMove r false) := envStep_of_env he
    have hm' : s.afterHold.tmr = .running ms := by rw [hmove]; exact hm
    have hr' : s.afterHold.rst = false := by rw [hmove]; rfl
    obtain ⟨t, ht⟩ := ih h.afterHold hp hm' hr' hl (congrArg List.tail he)
      (step_of_hold h.cfgWf hr' hp (by rw [hm']; exact nofun))
    exact ⟨t, ht.of_hold hs⟩

/-- Settles O50, by induction on the number of moves before the timer fires. -/
theorem pulseRunsToCompletion : Obligations.PulseRunsToCompletion := by
  intro n ms r l rest s h hp hm hr hl he
  obtain ⟨t, ht⟩ := completes_of_quietMoves h hp hm hr hl he
  exact ⟨t, ht.run, ht.idle, ht.sel, ht.level, ht.trace⟩

/-- The pulse of `s` ends, by its completion or by a reset. -/
def State.PulseEnds (s : State) : Prop :=
  ∃ k t, Aborts k s t ∨ ∃ l r, secondLevel (classify s.cfg s.cur) = some l ∧ Completes k l r s t

theorem State.PulseEnds.of_hold {s : State} (hs : step s = .next s.afterHold) : s.afterHold.PulseEnds → s.PulseEnds
  | ⟨k, t, .inl h⟩ => ⟨k + 1, t, .inl (h.of_hold hs)⟩
  | ⟨k, t, .inr ⟨l, r, hl, h⟩⟩ => ⟨k + 1, t, .inr ⟨l, r, hl, h.of_hold hs⟩⟩

theorem pulseEnds_of_reset {s : State} (h : s.Inv) (hr : s.rst = true) : s.PulseEnds :=
  ⟨0, s.initialise.envStep, .inl
    { run := run_one (step_of_reset h.cfgWf hr), idle := rfl, trace := rfl, sel := rfl, pins := rfl }⟩

theorem pulseEnds_of_expired {s : State} (h : s.Inv) (hp : s.phase = .wait) (hm : s.tmr = .expired) : s.PulseEnds := by
  cases hr : s.rst with
  | true => exact pulseEnds_of_reset h hr
  | false =>
    obtain ⟨l, hl⟩ := Option.isSome_iff_exists.1 (h.waitIsPulse hp)
    exact ⟨0, _, .inr ⟨l, s.txr, hl, completes_of_expired h hr hp hm hl⟩⟩

theorem Timer.fire_eq_expired {t : Timer} (h : t ≠ .idle) : t.fire = .expired := by
  cases t with
  | idle => exact absurd rfl h
  | running ms => rfl
  | expired => rfl

/-- A pulse ends if it does so after a hold without a fire step: with a fire step the timer has expired. -/
theorem pulseEnds_of_afterHold {s : State} (h : s.Inv) (hp : s.phase = .wait)
    (hnext : s.nextMove.fire = false → s.afterHold.PulseEnds) : s.PulseEnds := by
  cases hr : s.rst with
  | true => exact pulseEnds_of_reset h hr
  | false =>
    by_cases hm : s.tmr = .expired
    · exact pulseEnds_of_expired h hp hm
    · refine .of_hold (step_of_hold h.cfgWf hr hp hm) ?_
      cases hf : s.nextMove.fire with
      | false => exact hnext hf
      | true =>
        have hfire : s.afterHold.tmr = s.tmr.fire := (State.envStep_tmr _).trans (if_pos hf)
        exact pulseEnds_of_expired h.afterHold hp (hfire.trans (Timer.fire_eq_expired (h.timerOutstanding.1 hp)))

/-- R74 (a): with the moves left to free values, each brings the next fire step nearer (log 17). -/
theorem pulseEnds_of_countdown {n : Nat} {s : State} (h : s.Inv) (hp : s.phase = .wait) (he : s.env = [])
    (hn : countdown Config.freeGap s.draws = n) : s.PulseEnds := by
  induction n generalizing s with
  | zero =>
    have hf : s.nextMove.fire = true := (nextMove_fire_of_no_env he).trans (decide_eq_true hn)
    exact pulseEnds_of_afterHold h hp fun hf' => absurd (hf.symm.trans hf') nofun
  | succ n ih =>
    exact pulseEnds_of_afterHold h hp fun _ => ih h.afterHold hp (congrArg List.tail he) (countdown_between hn)

/-- Inside a pulse of a state that meets the invariants, each scheduled move leaves one fewer to pass. -/
theorem pulseEnds {s : State} (h : s.Inv) (hp : s.phase = .wait) : s.PulseEnds := by
  induction he : s.env generalizing s with
  | nil => exact pulseEnds_of_countdown h hp he rfl
  | cons m ms ih =>
    exact pulseEnds_of_afterHold h hp fun _ => ih h.afterHold hp (congrArg List.tail he)

/-- Settles O55, by induction on the schedule and then on the count of moves before the free fire step. -/
theorem everyPulseEnds : Obligations.EveryPulseEnds := by
  intro s h hp
  obtain ⟨k, t, ht | ⟨l, r, hl, ht⟩⟩ := pulseEnds h hp
  · exact ⟨k, t, .reset, ht.run, ht.idle, ht.trace, .inl ⟨rfl, ht.sel, ht.pins⟩⟩
  · exact ⟨k, t, _, ht.run, ht.idle, ht.trace, .inr ⟨l, r, hl, ht.sel, ht.level, rfl⟩⟩

/-! ### A stream answered byte by byte (R46, R52 (f), (g)) -/

/-- R66: with the selected port there and the timer idle, no command stops with a fault. -/
theorem exec_ne_fault {s : State} (hs : s.sel.port < s.cfg.nPort) (hm : s.tmr = .idle) (i : Instr) (f : Fault) :
    exec i s ≠ .fault f := by
  have pulse (b : Byte) (a : Level) (ms : Nat) : startPulse b a ms s ≠ .fault f := by
    rw [startPulse_next hs hm]
    exact nofun
  cases exec_shape i with
  | selection b he =>
    cases hl : s.cfg.lookup b with
    | some p => rw [he, select_next hl]; exact nofun
    | none => rw [he, select, State.tablePin, hl]; exact nofun
  | level b l he => rw [he, setLevel_next hs]; exact nofun
  | pulse b a ms he => rw [he]; exact pulse b a ms
  | lowerPulse b a ms he =>
    rw [he, unlessSelector]
    split
    · exact nofun
    · exact pulse b a ms
  | help he => rw [he, sendHelp_next]; exact nofun
  | unknown op he =>
    by_cases hc : classify s.cfg op = .unknown
    · rw [he, unknown_next hc]; exact nofun
    · rw [he, execUnk, if_neg hc]; exact nofun

/-- R66: between commands, from a state that meets the invariants, the command of any byte gives a next state. -/
theorem exec_decodeByte_next {s : State} (h : s.Inv) (hp : s.phase = .idle) (b : Byte) :
    ∃ t, exec (decodeByte s.cfg b) s = .next t := by
  have hm : s.tmr = .idle := not_not.1 fun hm => absurd (hp.symm.trans (h.timerOutstanding.2 hm)) nofun
  cases hx : exec (decodeByte s.cfg b) s with
  | next t => exact ⟨t, rfl⟩
  | fault f => exact absurd hx (exec_ne_fault h.portExists hm _ f)
  | refused r => exact absurd hx (exec_ne_refused h.cfgWf (decodeByte_wf h.cfgWf b) r)

theorem ExecCase.env_eq {i : Instr} {s t : State} (h : ExecCase i s t) : t.env = s.env := by
  cases h with
  | selected _ _ ht => rw [ht]; rfl
  | driven _ _ _ ht => rw [ht]; rfl
  | started _ _ _ _ _ ht => rw [ht]; rfl
  | helped _ ht => rw [ht]; rfl
  | unknown _ ht => rw [ht]; rfl

/-- R46: a byte that is not UNKNOWN is echoed as itself. -/
theorem echoOf_of_ne_unknown {c : Config} {b : Byte} (h : classify c b ≠ .unknown) : echoOf c b = b := if_neg h

theorem echoOf_operation {c : Config} (hc : c.wf) {b : Byte}
    (hb : b ∈ ([0x48, 0x4C, 0x74, 0x54, 0x75, 0x55, 0x3F] : List Byte)) : echoOf c b = b :=
  echoOf_of_ne_unknown fun h => ((classify_eq_unknown_iff hc b).1 h).2.2 hb

theorem StartsPulse.echoOf_eq {c : Config} (hc : c.wf) {i : Instr} {a : Level} {ms : Nat} (h : StartsPulse c i a ms) :
    echoOf c i.byte = i.byte :=
  echoOf_of_ne_unknown fun hu => by simpa [hu, duration] using h.duration_eq hc

/-- R46, R57: with the transmit path ready a command other than HELP is answered at once, or is a pulse, which is not answered yet. -/
theorem ExecCase.ready_cases {i : Instr} {s t : State} (h : ExecCase i s t) (hc : s.cfg.wf) (hr : s.txr = true)
    (hi : i ≠ .help) :
    (t.phase = s.phase ∧ transmittedBy t.out = [echoOf s.cfg i.byte]) ∨
    (t.phase = .wait ∧ t.cur = i.byte ∧ transmittedBy t.out = [] ∧ echoOf s.cfg i.byte = i.byte) := by
  cases h with
  | selected p hp ht =>
    rw [ht, hr, echoOf_of_ne_unknown (by rw [classify_of_lookup_some hp]; exact nofun)]
    exact .inl ⟨rfl, rfl⟩
  | driven l hi _ ht =>
    have he : echoOf s.cfg i.byte = i.byte := by
      obtain ⟨rfl, -⟩ | ⟨rfl, -⟩ := hi
      · exact echoOf_operation hc (by decide)
      · exact echoOf_operation hc (by decide)
    rw [ht, hr, he]
    exact .inl ⟨rfl, rfl⟩
  | started a ms hi _ _ ht =>
    rw [ht]
    exact .inr ⟨rfl, rfl, rfl, StartsPulse.echoOf_eq hc hi⟩
  | helped hi' _ => exact absurd hi' hi
  | unknown hu ht =>
    rw [ht, hr, echoOf, if_pos hu]
    exact .inl ⟨rfl, rfl⟩

/-- A move that keeps the path ready and lets the timer fire brings nothing else. -/
theorem envStep_of_quietMove {s : State} {ms : List EnvMove} (h : s.env = quietMove true true :: ms) :
    s.envStep.rst = false ∧ s.envStep.txReady = true ∧ s.envStep.pending = s.pending ∧ s.envStep.tmr = s.tmr.fire ∧
      s.envStep.env = ms := by
  have hm : s.envStep = s.applyMove (quietMove true true) := envStep_of_env h
  rw [hm]
  exact ⟨rfl, rfl, by simp [quietMove], rfl, congrArg List.tail h⟩

/-- Without reset and with the transmit path ready, in a state that meets the invariants. -/
structure State.Ready (s : State) : Prop where
  inv : s.Inv
  noReset : s.rst = false
  txReady : s.txReady = true

/-- From `s` to `t` the head `b` of the stream has been taken, and its selection, if it is a selector, made. -/
structure Taken (b : Byte) (s t : State) : Prop where
  ready : t.Ready
  cfg : t.cfg = s.cfg
  pending : t.pending = s.pending.tail
  sel : t.sel = (s.cfg.lookup b).getD s.sel

/-- The byte taken has been answered (R46). -/
structure Answered (b : Byte) (s t : State) : Prop extends Taken b s t where
  idle : t.phase = .idle
  sent : transmitted t.trace = transmitted s.trace ++ [echoOf s.cfg b]

/-- The byte taken has started a pulse, whose timer has expired since (R57). -/
structure Pulsing (b : Byte) (s t : State) : Prop extends Taken b s t where
  wait : t.phase = .wait
  cur : t.cur = b
  expired : t.tmr = .expired
  sent : transmitted t.trace = transmitted s.trace
  echo : echoOf s.cfg b = b

/-- R45: the step that takes a byte other than `'?'` answers it or starts its pulse. -/
theorem step_answers_or_starts {s : State} {b : Byte} {q : List Byte} {ms : List EnvMove} (h : s.Ready)
    (hp : s.phase = .idle) (hq : s.pending = b :: q) (hb : b ≠ 0x3F) (he : s.env = quietMove true true :: ms) :
    ∃ t, step s = .next t ∧ t.env = ms ∧ (Answered b s t ∨ Pulsing b s t) := by
  obtain ⟨u, hu⟩ := exec_decodeByte_next h.inv hp b
  have hx : ExecCase (decodeByte s.cfg b) s u := exec_cases hu
  have hstep : step s = .next u.envStep := by
    rw [stepRunsDecodedCommand s b q h.inv.cfgWf h.noReset hp hq, hu]
    rfl
  have hnothelp : decodeByte s.cfg b ≠ .help := fun hh => hb (by rw [← decodeByte_byte s.cfg b, hh]; rfl)
  have hsel := hx.sel_eq h.inv.cfgWf
  have hcases := hx.ready_cases h.inv.cfgWf h.txReady hnothelp
  rw [decodeByte_byte] at hsel hcases
  have hinv : u.Inv := hx.inv h.inv
  have hsent : transmitted u.trace = transmitted s.trace ++ transmittedBy u.out := by rw [hx.trace_eq, transmitted]
  obtain ⟨hrst, hready, hpending, hfire, henv⟩ := envStep_of_quietMove (hx.env_eq.trans he)
  have htaken : Taken b s u.envStep :=
    { ready := { inv := hinv.envStep, noReset := hrst, txReady := hready }
      cfg := hx.cfg_eq, pending := hpending.trans hx.takes_head.2, sel := hsel }
  refine ⟨u.envStep, hstep, henv, ?_⟩
  obtain ⟨hphase, hout⟩ | ⟨hwait, hcur, hout, hecho⟩ := hcases
  · exact .inl { htaken with idle := hphase.trans hp, sent := hout ▸ hsent }
  · exact .inr
      { htaken with
        wait := hwait, cur := hcur, echo := hecho
        expired := hfire.trans (Timer.fire_eq_expired (hinv.timerOutstanding.1 hwait))
        sent := hsent.trans (by rw [hout, List.append_nil]) }

/-- R62: the next step completes the pulse and echoes its byte. -/
theorem Pulsing.step_answers {b : Byte} {s v : State} {ms : List EnvMove} (h : Pulsing b s v)
    (he : v.env = quietMove true true :: ms) : ∃ t, step v = .next t ∧ t.env = ms ∧ Answered b s t := by
  obtain ⟨hinv, hrst, htx⟩ := h.ready
  obtain ⟨l, hl⟩ := Option.isSome_iff_exists.1 (hinv.waitIsPulse h.wait)
  have hstep := step_of_completion hinv.cfgWf hrst h.wait h.expired hl hinv.portExists
  obtain ⟨hrst', htx', hpending, -, henv⟩ := envStep_of_quietMove (s := v.afterCompletion l v.txr) he
  refine ⟨_, hstep, henv, ?_⟩
  exact
    { ready := { inv := stepKeepsInvariant v _ hinv hstep, noReset := hrst', txReady := htx' }
      cfg := h.cfg, pending := hpending.trans h.pending, sel := h.sel, idle := rfl
      sent := by
        have htxr : v.txr = true := htx
        rw [h.echo, ← h.sent, ← h.cur, htxr]
        rfl }

/-- With moves that fire at once, a byte other than `'?'` is answered within two steps. -/
theorem answered_within_two {s : State} {b : Byte} {q : List Byte} {n : Nat} {rest : List EnvMove} (h : s.Ready)
    (hp : s.phase = .idle) (hq : s.pending = b :: q) (hb : b ≠ 0x3F)
    (he : s.env = List.replicate (n + 2) (quietMove true true) ++ rest) :
    ∃ k t rest', k ≤ 2 ∧ core.run k s = .next t ∧ Answered b s t ∧
      t.env = List.replicate n (quietMove true true) ++ rest' := by
  obtain ⟨t, hstep, henv, ht | ht⟩ := step_answers_or_starts h hp hq hb he
  · refine ⟨1, t, quietMove true true :: rest, by omega, run_one hstep, ht, ?_⟩
    rw [henv, List.append_cons, ← List.replicate_succ']
    rfl
  · obtain ⟨t', hstep', henv', ht'⟩ := ht.step_answers henv
    exact ⟨2, t', rest, le_rfl, (run_succ 1 hstep).trans (run_one hstep'), ht', henv'⟩

/-- Settles O51, by induction on the stream: each byte is answered within two steps, and leaves enough moves for those after it. -/
theorem readyStreamIsEchoedByteByByte : Obligations.ReadyStreamIsEchoedByteByByte := by
  intro bytes rest s hinv hp hr htx hq hb he
  have h : s.Ready := ⟨hinv, hr, htx⟩
  clear hinv hr htx
  induction bytes generalizing s rest with
  | nil => exact ⟨0, s, Nat.zero_le _, rfl, hq, hp, (List.append_nil _).symm, rfl⟩
  | cons b q ih =>
    obtain ⟨hb, hbs⟩ := List.forall_mem_cons.1 hb
    obtain ⟨j, t, rest', hj, hrun, ht, henv⟩ := answered_within_two h hp hq hb he
    have hpending : t.pending = q := by rw [ht.pending, hq, List.tail_cons]
    obtain ⟨k, v, hk, hrun', hdone, hidle, hsent, hsel⟩ := ih rest' t ht.idle hpending hbs henv ht.ready
    refine ⟨j + k, v, ?_, (run_add j k hrun).trans hrun', hdone, hidle, ?_, ?_⟩
    · rw [List.length_cons]; omega
    · rw [hsent, ht.sent, ht.cfg, List.map_cons, List.append_assoc, List.singleton_append]
    · rw [hsel, ht.sel, ht.cfg, List.foldl_cons]

end Sys2Proof.Machine

/-! SUPPORT. Proofs of the statements of 41_select.md: what a selector command does, what a letter's byte is in a configuration
without that letter, and what the commands that drive no pin leave unchanged. -/

namespace Sys2Proof

/-! ### The bytes of the selector commands (R53, R54) -/

/-- The digit and letter commands are the selector commands of their bytes. -/
theorem selectorOf_byte {i : Instr} (h : i ∈ digitCommands ∨ i ∈ letterCommands.map Prod.snd) :
    selectorOf i.byte = some i := by
  have digits : ∀ i ∈ digitCommands, selectorOf i.byte = some i := by decide
  have letters : ∀ i ∈ letterCommands.map Prod.snd, selectorOf i.byte = some i := by decide
  exact h.elim (digits i) (letters i)

/-- R54: the `k`-th of the 26 letters has the byte 0x60 + k. -/
theorem letterCommands_byte {k : Nat} {i : Instr} (h : (k, i) ∈ letterCommands) :
    1 ≤ k ∧ k ≤ 26 ∧ i.byte.toNat = 0x60 + k := by
  have all : ∀ e ∈ letterCommands, 1 ≤ e.1 ∧ e.1 ≤ 26 ∧ e.2.byte.toNat = 0x60 + e.1 := by decide
  exact all _ h

/-- R54, the last column: the byte of a letter past the bound is that of a pulse command for `'t'` and `'u'`, and unknown
otherwise. -/
theorem decodeByte_of_absent_letter {c : Config} (hc : c.wf) {b : Byte} {k : Nat} (hb : b.toNat = 0x60 + k) (hk : k ≤ 26)
    (hn : c.nLetter < k) :
    decodeByte c b = if k = 20 then .shortLow else if k = 21 then .longLow else .unk b := by
  split_ifs with ht hu
  · obtain rfl : b = 0x74 := BitVec.eq_of_toNat_eq (by rw [hb, ht]; rfl)
    exact decodeByte_of_wf hc (i := .shortLow) (by omega)
  · obtain rfl : b = 0x75 := BitVec.eq_of_toNat_eq (by rw [hb, hu]; rfl)
    exact decodeByte_of_wf hc (i := .longLow) (by omega)
  · have hop : b ∉ ([0x48, 0x4C, 0x74, 0x54, 0x75, 0x55, 0x3F] : List Byte) := by
      simp only [List.mem_cons, List.not_mem_nil, or_false, ← BitVec.toNat_inj, hb, BitVec.reduceToNat]
      omega
    exact decodeByte_of_wf hc (i := .unk b) ⟨by omega, by omega, hop⟩

end Sys2Proof

namespace Sys2Proof.Machine

open Host

/-! ### What a selector command does (R53, R54) -/

/-- A selector command that the configuration has selects the table's pin, in every state. -/
theorem exec_selector_next {i : Instr} (hi : selectorOf i.byte = some i) {s : State} (hc : s.cfg.wf)
    (hb : isSelectorByte s.cfg.nLetter i.byte) :
    ∃ p, s.cfg.lookup i.byte = some p ∧
      exec i s = .next (((s.setSel p).dropByte).record (.ran ([.rxTake i.byte] ++ echo i.byte s.txr ++ [.poll]))) := by
  obtain ⟨p, hp⟩ := Option.isSome_iff_exists.1 ((Config.lookup_isSome_of_wf hc i.byte).2 hb)
  exact ⟨p, hp, (exec_selector hi s).trans (select_next hp)⟩

/-- Settles O9: a digit's byte is a selector byte whatever the number of letters. -/
theorem digitSelectorsSelect : Obligations.DigitSelectorsSelect := by
  have hbytes : digitCommands.map Instr.byte = Config.digitBytes := rfl
  refine ⟨hbytes, fun s i hc hi => exec_selector_next (selectorOf_byte (.inl hi)) hc (.inl ?_)⟩
  exact (Config.mem_digitBytes i.byte).1 (hbytes ▸ List.mem_map_of_mem hi)

/-- Settles O10: with at least `k` letters the byte 0x60 + k is a selector byte, and with fewer it is outside the table. -/
theorem letterSelectorsSelect : Obligations.LetterSelectorsSelect := by
  intro k i h
  obtain ⟨hpos, hk, hb⟩ := letterCommands_byte h
  have hsel : selectorOf i.byte = some i := selectorOf_byte (.inr (List.mem_map_of_mem h))
  exact ⟨hb, fun s hc hn => exec_selector_next hsel hc (.inr ⟨by omega, by omega⟩),
    fun c hc hn => decodeByte_of_absent_letter hc hb hk hn⟩

/-! ### The commands that drive no pin (R53, R54, R63, R64) -/

/-- A selector command, HELP or UNK sets the selection, takes its byte and records its cycle, and does nothing else; HELP and UNK
set the selection to what it was. -/
theorem exec_without_pin_effect {i : Instr} {s t : State}
    (hi : i ∈ digitCommands ∨ i ∈ letterCommands.map Prod.snd ∨ i = .help ∨ ∃ op, i = .unk op) (h : exec i s = .next t) :
    ∃ p c, t = ((s.setSel p).dropByte).record c ∧ (i = .help ∨ (∃ op, i = .unk op) → p = s.sel) := by
  obtain hsel | rfl | ⟨op, rfl⟩ := or_assoc.2 hi
  · have hi := selectorOf_byte hsel
    rw [exec_selector hi] at h
    obtain ⟨p, -, ht⟩ := select_cases h
    refine ⟨p, _, ht, ?_⟩
    rintro (rfl | ⟨op, rfl⟩)
    · exact absurd hi (by decide)
    · exact absurd hi (selectorOf_ne_unk op op)
  · exact ⟨s.sel, _, (Outcome.next.inj ((sendHelp_next s).symm.trans h)).symm, fun _ => rfl⟩
  · obtain ⟨-, ht⟩ := execUnk_cases h
    exact ⟨s.sel, _, ht, fun _ => rfl⟩

/-- Settles O19: setting the selection, taking a byte and recording a cycle write no other field, and so no pin. -/
theorem frameOfCommandsWithoutPinEffect : Obligations.FrameOfCommandsWithoutPinEffect := by
  intro i s t hi h
  obtain ⟨p, c, rfl, hp⟩ := exec_without_pin_effect hi h
  exact ⟨hp, rfl, rfl, rfl, rfl, rfl, rfl, rfl, rfl, rfl, fun _ => rfl, fun _ => rfl⟩

end Sys2Proof.Machine

/-! SUPPORT. Proofs of the statements of 42_level.md: what `H` and `L` do, what a second `H` changes, and what the commands that
drive the selected pin leave unchanged. -/

namespace Sys2Proof.Machine

/-! ### What the commands that drive a pin leave unchanged (R21, R55 to R61) -/

/-- `t` is `s` with the head of the receive stream taken, the selected pin driven and a cycle recorded. `CUR`, `PHASE` and the timer
may be new too, unless `keeps`. -/
def DrivesSelectedPin (keeps : Prop) (s t : State) : Prop :=
  ∃ l b ph tm c, t = { (s.dropByte.drive s.sel l).record c with cur := b, phase := ph, tmr := tm } ∧
    (keeps → b = s.cur ∧ ph = s.phase ∧ tm = s.tmr)

theorem setLevel_drivesSelectedPin {keeps : Prop} {b : Byte} {l : Level} {s t : State} (h : setLevel b l s = .next t) :
    DrivesSelectedPin keeps s t :=
  ⟨l, s.cur, s.phase, s.tmr, _, (setLevel_cases h).2, fun _ => ⟨rfl, rfl, rfl⟩⟩

theorem startPulse_drivesSelectedPin {keeps : Prop} (hk : ¬ keeps) {b : Byte} {a : Level} {ms : Nat} {s t : State}
    (h : startPulse b a ms s = .next t) : DrivesSelectedPin keeps s t :=
  ⟨a, b, .wait, .running ms, _, (startPulse_cases h).2.2, fun hi => absurd hi hk⟩

/-- Of the six commands, `H` and `L` keep `CUR`, `PHASE` and the timer. -/
theorem exec_drivesSelectedPin {i : Instr} {s t : State}
    (hi : i ∈ ([.high, .low, .shortLow, .shortHigh, .longLow, .longHigh] : List Instr)) (h : exec i s = .next t) :
    DrivesSelectedPin (i = .high ∨ i = .low) s t := by
  simp only [List.mem_cons, List.not_mem_nil, or_false] at hi
  obtain rfl | rfl | rfl | rfl | rfl | rfl := hi
  · exact setLevel_drivesSelectedPin h
  · exact setLevel_drivesSelectedPin h
  · exact startPulse_drivesSelectedPin (by decide) (unlessSelector_cases h).2
  · exact startPulse_drivesSelectedPin (by decide) h
  · exact startPulse_drivesSelectedPin (by decide) (unlessSelector_cases h).2
  · exact startPulse_drivesSelectedPin (by decide) h

/-- Settles O20: the one pin write is at the selected pin's address, and that is the address of no other pin. -/
theorem frameOfCommandsWithPinEffect : Obligations.FrameOfCommandsWithPinEffect := by
  intro i s t hi h
  obtain ⟨l, b, ph, tm, c, rfl, hkeeps⟩ := exec_drivesSelectedPin hi h
  exact ⟨hkeeps, rfl, rfl, rfl, rfl, rfl, rfl, rfl, fun _ ha => read_write_other s.pinlvl l ha,
    fun _ hp => s.level_drive_other l hp⟩

/-! ### `H` and `L` (R55, R56) -/

/-- Settles O11: `H` exists in every configuration, and is a level command at 0x48. -/
theorem hDrivesSelectedPinHigh : Obligations.HDrivesSelectedPinHigh :=
  ⟨fun _ hc => decodeByte_of_wf hc (i := .high) trivial, fun _ hs => setLevel_next hs⟩

/-- Settles O12: `L` exists in every configuration, and is a level command at 0x4C. -/
theorem lDrivesSelectedPinLow : Obligations.LDrivesSelectedPinLow :=
  ⟨fun _ hc => decodeByte_of_wf hc (i := .low) trivial, fun _ hs => setLevel_next hs⟩

/-! ### `H` twice (R21, R55) -/

/-- A second write to an address replaces the first. -/
theorem write_write_same (m : Memory) (a : Nat) (l l' : Level) : (m.write a l).write a l' = m.write a l' := by
  induction m with
  | nil => simp [Memory.write]
  | cons e m ih =>
    obtain ⟨k, v⟩ := e
    rcases lt_trichotomy a k with hlt | rfl | hgt
    · simp [Memory.write, hlt]
    · simp [Memory.write]
    · simp [Memory.write, hgt.not_gt, hgt.ne', ih]

/-- Settles O23: the second `H` meets the same selection and the same readiness, and its write replaces the first. -/
theorem hTwiceIsIdempotentOnPins : Obligations.HTwiceIsIdempotentOnPins := by
  intro s hs
  have next (u : State) (hu : u.sel.port < u.cfg.nPort) := hDrivesSelectedPinHigh.2 u hu
  refine ⟨_, _, next s hs, next _ hs, s.level_drive_same s.sel .high, State.level_drive_same _ s.sel .high,
    write_write_same s.pinlvl s.sel.key .high .high, rfl, fun hr => ?_⟩
  rw [State.out, hr]
  rfl

end Sys2Proof.Machine

/-! SUPPORT. Proofs of the statements of 43_pulse.md: the rule of each pulse command, from its start over its holds to its
completion, and the level that a completing transition drives. -/

namespace Sys2Proof.Machine

/-! ### The completing transition (R62) -/

/-- R35, R36: a byte of `t` and `u` that is no selector ends its pulse high, a byte of `T` and `U` low. -/
theorem secondLevel_of_pulse_byte {c : Config} {b : Byte} (hb : b ∈ ([0x74, 0x75, 0x54, 0x55] : List Byte))
    (hn : c.lookup b = none) :
    secondLevel (classify c b) = some (if b = 0x74 ∨ b = 0x75 then .high else .low) := by
  rw [classify_of_lookup_none hn]
  simp only [List.mem_cons, List.not_mem_nil, or_false] at hb
  obtain rfl | rfl | rfl | rfl := hb
  · rfl
  · rfl
  · rfl
  · rfl

/-- Settles O27: in `WAIT` with the timer expired the step is the completion, at the second level of the byte in `CUR`. -/
theorem completionDrivesSecondLevel : Obligations.CompletionDrivesSecondLevel :=
  fun _ hc hr hp hm hs hb hn => ⟨_, rfl, step_of_completion hc hr hp hm (secondLevel_of_pulse_byte hb hn) hs⟩

/-! ### The pulse commands (R57 to R61) -/

/-- R57, R48, R62: a command that is no selector keeps the rule of a pulse, when, its byte outside the table, it has a class with
that second level and starts a pulse with its byte. -/
theorem pulseCommand_of_startPulse {i : Instr} {cls : Command} {first second : Level} {ms : Nat} {present : Config → Prop}
    (hsel : selectorOf i.byte ≠ some i) (hwf : ∀ c, present c → i.wf c)
    (hcls : ∀ {c : Config}, c.lookup i.byte = none → classify c i.byte = cls) (hsecond : secondLevel cls = some second)
    (hstart : ∀ {s : State}, s.cfg.lookup i.byte = none → exec i s = startPulse i.byte first ms s) :
    PulseCommand i i.byte cls first second ms present := by
  have hn {c : Config} (hc : c.wf) (hp : present c) : c.lookup i.byte = none :=
    Instr.lookup_byte_eq_none hc (hwf c hp) hsel
  refine ⟨fun c hc hp => ⟨decodeByte_of_wf hc (hwf c hp), hcls (hn hc hp)⟩, fun s hc hp hs hm => ?_,
    fun s hc _ hr hw _ hm => step_of_hold hc hr hw hm, fun s hc hp hs hr hw hcur hm => ?_⟩
  · exact (hstart (hn hc hp)).trans (startPulse_next hs hm)
  · have hl : secondLevel (classify s.cfg s.cur) = some second := by rw [hcur, hcls (hn hc hp), hsecond]
    rw [← hcur]
    exact step_of_completion hc hr hw hm hl hs

/-- Settles O13: `t` is a pulse where 0x74 is outside the table, and with 20 letters the byte is that of `SEL_t`. -/
theorem shortLowPulse : Obligations.ShortLowPulse :=
  ⟨pulseCommand_of_startPulse (i := .shortLow) (by decide) (fun _ hp => hp) classify_of_lookup_none rfl unlessSelector_none,
    fun _ hc hn => decodeByte_of_wf hc (i := .sel_t) hn⟩

/-- Settles O14: `T` is a pulse in every configuration. -/
theorem shortHighPulse : Obligations.ShortHighPulse :=
  pulseCommand_of_startPulse (i := .shortHigh) (by decide) (fun _ hp => hp) classify_of_lookup_none rfl fun _ => rfl

/-- Settles O15: `u` is a pulse where 0x75 is outside the table, and with 21 letters the byte is that of `SEL_u`. -/
theorem longLowPulse : Obligations.LongLowPulse :=
  ⟨pulseCommand_of_startPulse (i := .longLow) (by decide) (fun _ hp => hp) classify_of_lookup_none rfl unlessSelector_none,
    fun _ hc hn => decodeByte_of_wf hc (i := .sel_u) hn⟩

/-- Settles O16: `U` is a pulse in every configuration. -/
theorem longHighPulse : Obligations.LongHighPulse :=
  pulseCommand_of_startPulse (i := .longHigh) (by decide) (fun _ hp => hp) classify_of_lookup_none rfl fun _ => rfl

end Sys2Proof.Machine

/-! SUPPORT. Proofs of the statements of 44_help_unknown.md: what HELP and UNK do in every state, and how many bytes are unknown. -/

/-! ### How many bytes are unknown (R64) -/

namespace Sys2Proof

/-- A configuration with `n` letters: every selector names the one pin `SEL_RESET`. -/
def Config.onePin (n : Nat) : Config :=
  { nLetter := n, nPort := 1, pinTable := (Config.alphabet n).map fun b => (b, Config.selReset), helpText := [] }

theorem Config.onePin_wf {n : Nat} (hn : n ≤ 26) : (Config.onePin n).wf := by
  refine (Config.wf_iff _).2 ⟨hn, one_ne_zero, (List.map_map ..).trans (List.map_id _), fun e he => ?_, nofun⟩
  obtain ⟨b, -, rfl⟩ := List.mem_map.1 he
  exact Nat.one_pos

/-- The unknown bytes are those of class UNKNOWN in any well-formed configuration with as many letters, and there `classSizes` has
counted them. -/
theorem countP_isUnknownByte {n : Nat} (hn : n ≤ 19) :
    (List.range 256).countP (fun k => decide (isUnknownByte n (BitVec.ofNat 8 k))) = 239 - n := by
  have hc : (Config.onePin n).wf := Config.onePin_wf (by omega)
  have hcount := (classSizes (Config.onePin n) hc hn).2
  simp only [classify_eq_unknown_iff hc] at hcount
  exact hcount

end Sys2Proof

/-! ### HELP and UNK (R63, R64) -/

namespace Sys2Proof.Machine

/-- Settles O17: HELP exists in every configuration, and its transition attempts the text and nothing else. -/
theorem helpSendsWholeTextOrNothing : Obligations.HelpSendsWholeTextOrNothing :=
  ⟨fun _ hc => decodeByte_of_wf hc (i := .help) trivial, sendHelp_next⟩

/-- Settles O18: an unknown byte has class UNKNOWN, so `UNK` of it exists and answers 0x3F. -/
theorem unknownByteIsAnsweredQuestionMark : Obligations.UnknownByteIsAnsweredQuestionMark :=
  ⟨fun _ op hc hu =>
      ⟨decodeByte_of_wf hc (i := .unk op) hu, unknown_next ((classify_eq_unknown_iff hc op).2 hu)⟩,
    fun _ => countP_isUnknownByte⟩

end Sys2Proof.Machine

/-! SUPPORT. Proofs of the statements of 60_exceptions.md: no step stops from a state that meets the invariants, the timer's moves,
what the adapter's losses leave, the fairness of the timer's fire step, and where a command by itself stops. -/

namespace Sys2Proof.Machine

open Host

/-! ### The machine never stops (R66) -/

/-- Settles O33: in every arm of the dispatcher, and in a reset cycle, the invariants give what the transition asks. -/
theorem stepNeverStops : Obligations.StepNeverStops := by
  intro s h
  cases hr : s.rst with
  | true => exact ⟨_, step_of_reset h.cfgWf hr⟩
  | false =>
    cases hp : s.phase with
    | idle =>
      cases hq : s.pending with
      | nil => exact ⟨_, step_of_idle h.cfgWf hr hp hq⟩
      | cons b rest =>
        obtain ⟨t, ht⟩ := exec_decodeByte_next h hp b
        exact ⟨t.envStep, by rw [stepRunsDecodedCommand s b rest h.cfgWf hr hp hq, ht]; rfl⟩
    | wait =>
      by_cases hm : s.tmr = .expired
      · obtain ⟨l, hl⟩ := Option.isSome_iff_exists.1 (h.waitIsPulse hp)
        exact ⟨_, step_of_completion h.cfgWf hr hp hm hl h.portExists⟩
      · exact ⟨_, step_of_hold h.cfgWf hr hp hm⟩

/-! ### The timer's moves (R73) -/

/-- What a transition without reset does to the timer (R73), before the environment's move. -/
inductive TimerCase (s u : State) : Prop where
  /-- The timer is left alone; an expired one never is. -/
  | kept (hm : s.tmr ≠ .expired) (hu : u.tmr = s.tmr)
  /-- R57: a start on an idle timer. -/
  | started (ms : Nat) (hm : s.tmr = .idle) (hu : u.tmr = .running ms) (ho : Event.tmrStart ms ∈ u.out)
  /-- R62: an expired timer is consumed. -/
  | consumed (hm : s.tmr = .expired) (hu : u.tmr = .idle) (ho : Event.tmrDone ∈ u.out)

/-- R13 (d): between commands the timer is idle. -/
theorem State.Inv.tmr_eq_idle {s : State} (h : s.Inv) (hp : s.phase = .idle) : s.tmr = .idle :=
  not_not.1 fun hm => absurd (hp.symm.trans (h.timerOutstanding.2 hm)) nofun

theorem ExecCase.timerCase {i : Instr} {s t : State} (h : ExecCase i s t) (hm : s.tmr = .idle) : TimerCase s t := by
  have hne : s.tmr ≠ .expired := by rw [hm]; exact nofun
  cases h with
  | selected _ _ ht => exact .kept hne (by rw [ht]; rfl)
  | driven _ _ _ ht => exact .kept hne (by rw [ht]; rfl)
  | started a ms _ _ _ ht => exact .started ms hm (by rw [ht]; rfl) (by rw [ht]; simp)
  | helped _ ht => exact .kept hne (by rw [ht]; rfl)
  | unknown _ ht => exact .kept hne (by rw [ht]; rfl)

theorem StepCase.timerCase {s u : State} (h : StepCase s u) (hs : s.Inv) (hr : s.rst = false) : TimerCase s u := by
  cases h with
  | reset hr' _ => exact absurd (hr.symm.trans hr') nofun
  | idled _ hp _ hu => exact .kept (by rw [hs.tmr_eq_idle hp]; exact nofun) (by rw [hu]; rfl)
  | took _ _ _ hp _ hx => exact hx.timerCase (hs.tmr_eq_idle hp)
  | held _ _ hm hu => exact .kept hm (by rw [hu]; rfl)
  | completed _ _ _ hm _ _ hu => exact .consumed hm (by rw [hu]; rfl) (by rw [hu]; simp)

/-- The environment's move fires a running timer or lets it run on. -/
theorem envStep_tmr_of_running {s : State} {ms : Nat} (h : s.tmr = .running ms) :
    s.envStep.tmr = if s.nextMove.fire then .expired else .running ms := by
  rw [State.envStep_tmr, h, Timer.fire]

/-- Settles O46: each case of the transition answers one clause, and the environment's move can only fire a running timer. -/
theorem timerMovesAsItsRuleSays : Obligations.TimerMovesAsItsRuleSays := by
  intro s t hs h hr
  obtain ⟨-, u, rfl, hu⟩ := step_cases h
  rw [State.envStep_out, ← hu.nextMove_eq]
  cases hu.timerCase hs hr with
  | kept hm hsame =>
    exact ⟨fun hi hne => absurd ((envStep_tmr_eq_idle u).2 (hsame.trans hi)) hne,
      fun ms hrun => envStep_tmr_of_running (hsame.trans hrun), fun he => absurd he hm⟩
  | started ms hm hrun ho =>
    exact ⟨fun _ _ => ⟨ms, ho, envStep_tmr_of_running hrun⟩, fun _ h' => absurd (hm.symm.trans h') nofun,
      fun h' => absurd (hm.symm.trans h') nofun⟩
  | consumed hm hidle ho =>
    exact ⟨fun h' => absurd (hm.symm.trans h') nofun, fun _ h' => absurd (hm.symm.trans h') nofun,
      fun _ => ⟨(envStep_tmr_eq_idle u).2 hidle, ho⟩⟩

/-! ### What the adapter loses (R75 (a)) -/

theorem survivors_sublist (lost : List Bool) (q : List Byte) : (survivors lost q).Sublist q := by
  induction q generalizing lost with
  | nil => rw [survivors_of_none_pending]
  | cons b q ih =>
    match lost with
    | [] => rw [survivors_of_none_lost]
    | true :: ls => exact survivors_cons_lost ls b q ▸ (ih ls).cons b
    | false :: ls => exact survivors_cons_held ls b q ▸ (ih ls).cons_cons b

/-- Losing exactly the bytes that a subsequence leaves out leaves the subsequence. -/
theorem exists_survivors_eq {kept q : List Byte} (h : kept.Sublist q) : ∃ lost, survivors lost q = kept := by
  induction h with
  | slnil => exact ⟨[], rfl⟩
  | cons b _ ih =>
    obtain ⟨lost, hl⟩ := ih
    exact ⟨true :: lost, by rw [survivors_cons_lost, hl]⟩
  | cons_cons b _ ih =>
    obtain ⟨lost, hl⟩ := ih
    exact ⟨false :: lost, by rw [survivors_cons_held, hl]⟩

/-- Settles O52: by induction on the queue, and on the subsequence. -/
theorem lossesKeepOrder : Obligations.LossesKeepOrder :=
  ⟨survivors_sublist, fun _ _ => exists_survivors_eq⟩

/-! ### The free firing of the timer (R74 (a), D23) -/

/-- The count says how many moves are still to pass before the next fire step. -/
theorem countdown_reaches_zero {gap : Nat → Nat} {n k : Nat} (h : countdown gap n = k) : countdown gap (n + k) = 0 := by
  induction k generalizing n with
  | zero => exact h
  | succ k ih =>
    rw [Nat.add_comm k, ← Nat.add_assoc]
    exact ih (countdown_between h)

section
variable {f : Nat → Bool} (hf : ∀ n, ∃ m, n ≤ m ∧ f m = true)
include hf

theorem exists_fire_after (n : Nat) : ∃ d, f (n + d) = true := by
  obtain ⟨m, hm, h⟩ := hf n
  exact ⟨m - n, by rwa [Nat.add_sub_cancel' hm]⟩

/-- How many moves after the `n`-th a firing that goes on for ever next fires. -/
def movesToFire (n : Nat) : Nat := Nat.find (exists_fire_after hf n)

theorem movesToFire_eq_zero_iff (n : Nat) : movesToFire hf n = 0 ↔ f n = true := Nat.find_eq_zero _

theorem movesToFire_succ {n k : Nat} (h : movesToFire hf n = k + 1) : movesToFire hf (n + 1) = k := by
  obtain ⟨hfire, hleast⟩ := (Nat.find_eq_iff _).1 h
  have shift (d : Nat) : n + 1 + d = n + (d + 1) := by omega
  exact (Nat.find_eq_iff _).2 ⟨by rwa [shift], fun d hd => by rw [shift]; exact hleast _ (Nat.succ_lt_succ hd)⟩

/-- With these gaps the countdown is the number of moves to the next fire. -/
theorem countdown_movesToFire (n : Nat) : countdown (movesToFire hf) n = movesToFire hf n := by
  induction n with
  | zero => rfl
  | succ n ih =>
    cases hn : movesToFire hf n with
    | zero => exact countdown_after_fire (ih.trans hn)
    | succ k => rw [countdown_between (ih.trans hn), movesToFire_succ hf hn]

end

/-- Settles O53: a countdown ends, and the gaps of a firing are its distances to the next fire. -/
theorem freeFiringIsExactlyTheFairOne : Obligations.FreeFiringIsExactlyTheFairOne :=
  ⟨fun _ n => ⟨_, Nat.le_add_right n _, countdown_reaches_zero rfl⟩,
    fun _ hf => ⟨movesToFire hf, fun n => by rw [countdown_movesToFire, movesToFire_eq_zero_iff]⟩⟩

/-! ### The fire step is weakly fair (R74 (a), R81) -/

/-- Each hold whose move does not fire brings the fire step nearer: by a scheduled move, or, with none left, by the countdown
(log 17). So a property holds of every state when each state inherits it from the one after such a hold. -/
theorem afterHold_induction {P : State → Prop} (hold : ∀ s, (s.nextMove.fire = false → P s.afterHold) → P s)
    (s : State) : P s := by
  have free (n : Nat) : ∀ s : State, s.env = [] → countdown Config.freeGap s.draws = n → P s := by
    induction n with
    | zero =>
      intro s he hn
      have hf : s.nextMove.fire = true := (nextMove_fire_of_no_env he).trans (decide_eq_true hn)
      exact hold s fun hf' => absurd (hf.symm.trans hf') nofun
    | succ n ih =>
      intro s he hn
      exact hold s fun _ => ih s.afterHold (congrArg List.tail he) (countdown_between hn)
  induction he : s.env generalizing s with
  | nil => exact free _ s he rfl
  | cons m ms ih => exact hold s fun _ => ih s.afterHold (congrArg List.tail he)

/-- The step taken now: it fires the timer, or it is a reset cycle. -/
theorem State.FireIsFair.of_last_step {s u : State} (he : s.FireEnabled) (hs : step s = .next u)
    (hu : u.tmr = .expired ∨ (s.rst = true ∧ u.tmr = .idle)) : s.FireIsFair := by
  refine ⟨0, s, u, rfl, fun j r hj hrun => ?_, hs, hu⟩
  obtain rfl := Nat.le_zero.1 hj
  exact Outcome.next.inj hrun ▸ he

/-- One more step before, from a state in which the fire step is enabled. -/
theorem State.FireIsFair.of_step {s u : State} (he : s.FireEnabled) (hs : step s = .next u) (h : u.FireIsFair) :
    s.FireIsFair := by
  obtain ⟨k, t, v, hrun, henabled, hlast⟩ := h
  refine ⟨k + 1, t, v, (run_succ k hs).trans hrun, fun j r hj hr => ?_, hlast⟩
  cases j with
  | zero => exact Outcome.next.inj hr ▸ he
  | succ j => exact henabled j r (Nat.le_of_succ_le_succ hj) ((run_succ j hs).symm.trans hr)

/-- Settles O54: while the timer runs every step is a reset cycle or a hold, and the holds whose move does not fire come to an
end. -/
theorem fireStepIsWeaklyFair : Obligations.FireStepIsWeaklyFair := by
  intro s
  induction s using afterHold_induction with
  | hold s ih =>
    rintro h ⟨ms, hm⟩
    cases hr : s.rst with
    | true =>
      exact .of_last_step ⟨ms, hm⟩ (step_of_reset h.cfgWf hr) (.inr ⟨hr, (envStep_tmr_eq_idle s.initialise).2 rfl⟩)
    | false =>
      have hp : s.phase = .wait := h.timerOutstanding.2 (by rw [hm]; exact nofun)
      have hs : step s = .next s.afterHold := step_of_hold h.cfgWf hr hp (by rw [hm]; exact nofun)
      have hm' : s.afterHold.tmr = if s.nextMove.fire then .expired else .running ms :=
        envStep_tmr_of_running (s := s.record (.ran [])) hm
      cases hf : s.nextMove.fire with
      | true => exact .of_last_step ⟨ms, hm⟩ hs (.inl (hm'.trans (if_pos hf)))
      | false => exact .of_step ⟨ms, hm⟩ hs (ih hf h.afterHold ⟨ms, hm'.trans (by rw [hf]; rfl)⟩)

/-! ### Where a command stops (logs 11 and 12) -/

theorem setLevel_noSuchPin {b : Byte} {l : Level} {s : State} (h : s.cfg.nPort ≤ s.sel.port) :
    setLevel b l s = .fault .noSuchPin := by
  simp [setLevel, State.pin, transition, performAll, perform, andThen, h.not_gt]

theorem startPulse_noSuchPin {b : Byte} {a : Level} {ms : Nat} {s : State} (h : s.cfg.nPort ≤ s.sel.port) :
    startPulse b a ms s = .fault .noSuchPin := by
  simp [startPulse, State.pin, transition, performAll, perform, andThen, h.not_gt]

theorem perform_tmrStart_timerBusy {s : State} (ms : Nat) (h : s.tmr ≠ .idle) :
    perform s (.tmrStart ms) = .fault .timerBusy := by
  rw [perform]
  split
  next hm => exact absurd hm h
  · rfl
  · rfl

theorem startPulse_timerBusy {b : Byte} {a : Level} {ms : Nat} {s : State} (hp : s.sel.port < s.cfg.nPort)
    (hm : s.tmr ≠ .idle) : startPulse b a ms s = .fault .timerBusy := by
  have hpin : perform (s.beginWait b).dropByte (.pinSet s.sel a) = _ := perform_pinSet a hp
  have hbusy : perform ((s.beginWait b).dropByte.drive s.sel a) (.tmrStart ms) = _ := perform_tmrStart_timerBusy ms hm
  rw [startPulse, State.pin, transition, performAll, perform, andThen, performAll, hpin, andThen, performAll, hbusy]
  rfl

theorem unlessSelector_absentCommand {b : Byte} {run : State → Outcome State Fault Refusal} {s : State}
    (h : (s.cfg.lookup b).isSome) : unlessSelector b run s = .refused .absentCommand := by
  obtain ⟨p, hp⟩ := Option.isSome_iff_exists.1 h
  rw [unlessSelector, State.tablePin, hp]

theorem select_absentCommand {b : Byte} {s : State} (h : s.cfg.lookup b = none) :
    select b s = .refused .absentCommand := by
  rw [select, State.tablePin, h]

theorem exec_higherPulse {i : Instr} (hi : i ∈ ([.shortHigh, .longHigh] : List Instr)) :
    ∃ a ms, ∀ s, exec i s = startPulse i.byte a ms s := by
  simp only [List.mem_cons, List.not_mem_nil, or_false] at hi
  obtain rfl | rfl := hi
  · exact ⟨_, _, fun _ => rfl⟩
  · exact ⟨_, _, fun _ => rfl⟩

theorem exec_lowerPulse {i : Instr} (hi : i ∈ ([.shortLow, .longLow] : List Instr)) :
    ∃ a ms, ∀ s, exec i s = unlessSelector i.byte (startPulse i.byte a ms) s := by
  simp only [List.mem_cons, List.not_mem_nil, or_false] at hi
  obtain rfl | rfl := hi
  · exact ⟨_, _, fun _ => rfl⟩
  · exact ⟨_, _, fun _ => rfl⟩

/-- Settles O21: each command is a use of a shared operation, and stops where that does. -/
theorem whereCommandsStop : Obligations.WhereCommandsStop := by
  refine fun s => ⟨fun i hi hp => ?_, fun i hi hl hp => ?_, fun i hi hp hm => ?_, fun i hi hl hp hm => ?_,
    fun i hi hl => ?_, fun i hi hl => ?_, fun op hc => if_neg hc⟩
  · simp only [List.mem_cons, List.not_mem_nil, or_false] at hi
    obtain rfl | rfl | rfl | rfl := hi
    · exact setLevel_noSuchPin hp
    · exact setLevel_noSuchPin hp
    · exact startPulse_noSuchPin hp
    · exact startPulse_noSuchPin hp
  · obtain ⟨a, ms, he⟩ := exec_lowerPulse hi
    rw [he, unlessSelector_none hl, startPulse_noSuchPin hp]
  · obtain ⟨a, ms, he⟩ := exec_higherPulse hi
    rw [he, startPulse_timerBusy hp hm]
  · obtain ⟨a, ms, he⟩ := exec_lowerPulse hi
    rw [he, unlessSelector_none hl, startPulse_timerBusy hp hm]
  · obtain ⟨a, ms, he⟩ := exec_lowerPulse hi
    rw [he, unlessSelector_absentCommand hl]
  · rw [exec_selector (selectorOf_byte (List.mem_append.1 hi)), select_absentCommand hl]

end Sys2Proof.Machine

/-! SUPPORT. Proof of the statement of 70_reset_and_hazards.md: what a reset cycle does in either phase. -/

namespace Sys2Proof.Machine

/-! ### The reset cycle (R80, R81) -/

/-- Settles O28: in a reset cycle the step makes `State.initialise`, whose fields these are, without asking for the phase. -/
theorem resetCycleOverridesEverything : Obligations.ResetCycleOverridesEverything := fun _ => step_of_reset

end Sys2Proof.Machine
